-- ==== Sys2Proof/Word.lean ====
section
/-! DEFINITION. The word types of the block. All quantities are unsigned and bit 0 is the least
significant bit of every value (00_scope.md R5). -/

namespace Sys2Proof

/-- A byte is 8 bits (R5); the unit of both FIFOs and of the caller buffer (R41). -/
abbrev Byte := BitVec 8

/-- A 32-bit operand word `A` or `B` (R73), interrupt register (R26), argument or payload (R61, R62). -/
abbrev Word := BitVec 32

/-- A 48-bit bus frame `f`; `f[47]` is the first bit on the bus (R5, R60). -/
abbrev Frame := BitVec 48

/-- A 6-bit command index (R61). -/
abbrev Index := BitVec 6

/-- A 7-bit frame CRC (R65). -/
abbrev Crc7 := BitVec 7

/-- The 8-bit operation select code `OPSEL` (R73). -/
abbrev Opsel := BitVec 8

end Sys2Proof
end

