-- ==== Sys2Proof/Syntax.lean ====
section
/-! DEFINITION. The syntax: the operand enumerations (R78 to R82), the operation request (R73), the
26 rows of spec/opcode_table.json as the one inductive `Instr`, and the steps of the agents other
than the driver (45_bus_agents.md). -/

namespace Sys2Proof

/-- R78: the direction `fifo_ready` asks about. -/
inductive FifoStatus
  | readReady
  | writeReady
deriving DecidableEq, Repr, Inhabited

/-- R79: the three reset lines. -/
inductive ResetLine
  | all
  | cmd
  | data
deriving DecidableEq, Repr, Inhabited

/-- R80: the signalling mode `send_tuning` stores. -/
inductive TuningMode
  | sdr50
  | sdr104
  | hs200
deriving DecidableEq, Repr, Inhabited

/-- R81: the tuning-pattern width `send_tuning` stores. -/
inductive TuningWidth
  | bits4
  | bits8
deriving DecidableEq, Repr, Inhabited

/-- R82: the one member of CardType that is ever produced. -/
inductive CardType
  | sd
deriving DecidableEq, Repr, Inhabited

/-- R82: the one member of CardMode that is ever produced. -/
inductive CardMode
  | sdio
deriving DecidableEq, Repr, Inhabited

/-- R73: an operation request on the driver port, the record `(OPSEL, A, B, BUF)`. -/
structure Request where
  opsel : Opsel
  a     : Word
  b     : Word
  buf   : List Byte
deriving DecidableEq, Repr, Inhabited

/-- One constructor per row of spec/opcode_table.json: the 18 operations (R75) with the operands of
R74, the six reserved ranges of OPSEL (R76), and the two frame formats (R61, R62). Operand words
whose code need not be a member of its enumeration stay words: such an operation runs and answers
an error (R83). -/
inductive Instr
  /-- `OPSEL = 0x00`, R91. -/
  | cardType
  /-- `OPSEL = 0x01`, R92. -/
  | cardMode
  /-- `OPSEL = 0x02`, R93. -/
  | setupBus
  /-- `OPSEL = 0x03`, R94. -/
  | init
  /-- `OPSEL = 0x04`, R120; `status` is the word `A`. -/
  | fifoReady (status : Word)
  /-- `OPSEL = 0x05`, R133; `line` is the word `A`, `timeout` the word `B`. -/
  | waitForReset (line timeout : Word)
  /-- `OPSEL = 0x06`, R129; `timeoutUs` is the word `A`. -/
  | waitWhileBusy (timeoutUs : Word)
  /-- `OPSEL = 0x07`, R122; `buf` is the caller buffer before the operation. -/
  | readData (buf : List Byte)
  /-- `OPSEL = 0x08`, R125. -/
  | writeData (buf : List Byte)
  /-- `OPSEL = 0x09`, R146; `mode` is the word `A`, `width` the word `B`. -/
  | sendTuning (mode width : Word)
  /-- `OPSEL = 0x0A`, R140. -/
  | interrupt
  /-- `OPSEL = 0x0B`, R141; `v` is the word `A`. -/
  | setInterrupt (v : Word)
  /-- `OPSEL = 0x0C`, R142. -/
  | clearAllInterrupt
  /-- `OPSEL = 0x0D`, R143. -/
  | responseInterrupt
  /-- `OPSEL = 0x0E`, R144; `v` is the word `A`. -/
  | setResponseInterrupt (v : Word)
  /-- `OPSEL = 0x0F`, R145. -/
  | clearAllResponseInterrupt
  /-- `OPSEL = 0x10`, R110. -/
  | readCommand
  /-- `OPSEL = 0x11`, R114; `index = A[5:0]`, `withCrc = A[8]`, `payload = B`. -/
  | writeResponse (index : Index) (withCrc : Bool) (payload : Word)
  /-- `OPSEL` 0x12 to 0x13, R76. -/
  | reserved12To13 (opsel : Opsel)
  /-- `OPSEL` 0x14 to 0x17, R76. -/
  | reserved14To17 (opsel : Opsel)
  /-- `OPSEL` 0x18 to 0x1F, R76. -/
  | reserved18To1F (opsel : Opsel)
  /-- `OPSEL` 0x20 to 0x3F, R76. -/
  | reserved20To3F (opsel : Opsel)
  /-- `OPSEL` 0x40 to 0x7F, R76. -/
  | reserved40To7F (opsel : Opsel)
  /-- `OPSEL` 0x80 to 0xFF, R76. -/
  | reserved80ToFF (opsel : Opsel)
  /-- A command frame, R61: start 0, dir 1, end 1. The CRC field is whatever the host put there. -/
  | cmd48 (index : Index) (arg : Word) (crc : Crc7)
  /-- A frame of the response format, R62: start 0, dir 0, end 1. -/
  | rsp48 (index : Index) (payload : Word) (crc : Crc7)
deriving DecidableEq, Repr, Inhabited

/-- The steps of the host, the hardware and the clock (R150 to R160), with the values the agent
chooses freely. -/
inductive EnvStep
  /-- `HOST_SEND_COMMAND(f)`, R150. -/
  | sendCommand (f : Frame)
  /-- `HOST_TAKE_RESPONSE`, R151. -/
  | takeResponse
  /-- `HOST_PUSH_BYTE(b)`, R152. -/
  | pushByte (b : Byte)
  /-- `HOST_POP_BYTE`, R153. -/
  | popByte
  /-- `BUS_FAULT`, R154. -/
  | busFault
  /-- `HW_RESET(line)`, R156. -/
  | hwReset (line : ResetLine)
  /-- `HW_TUNING_DONE`, R157. -/
  | tuningDone
  /-- `POLL`, R159. -/
  | poll
  /-- `TICK`, R160. -/
  | tick
deriving DecidableEq, Repr, Inhabited

/-- One thing the outside presents to the block: a request by the driver, or a step of another
agent (R7). -/
inductive Input
  | request (r : Request)
  | env (e : EnvStep)
deriving DecidableEq, Repr, Inhabited

end Sys2Proof
end

