-- ==== Sys2Proof/WellFormed.lean ====
section
/-! DEFINITION. Which terms of `Instr` stand for words of their row of spec/opcode_table.json: a
reserved constructor carries an OPSEL of its own range (R76). Every other term is well-formed: the
operands of R74 and the frame fields of R61 and R62 are as wide as their types. -/

namespace Sys2Proof

/-- Is `lo <= opsel <= hi`? -/
def opselBetween (lo hi : Nat) (opsel : Opsel) : Bool :=
  lo ≤ opsel.toNat && opsel.toNat ≤ hi

/-- R75, R76: the OPSEL a reserved constructor carries lies in the range its row of the table gives. -/
def Instr.wellFormed : Instr → Bool
  | .cardType => true
  | .cardMode => true
  | .setupBus => true
  | .init => true
  | .fifoReady _ => true
  | .waitForReset _ _ => true
  | .waitWhileBusy _ => true
  | .readData _ => true
  | .writeData _ => true
  | .sendTuning _ _ => true
  | .interrupt => true
  | .setInterrupt _ => true
  | .clearAllInterrupt => true
  | .responseInterrupt => true
  | .setResponseInterrupt _ => true
  | .clearAllResponseInterrupt => true
  | .readCommand => true
  | .writeResponse _ _ _ => true
  | .reserved12To13 op => opselBetween 0x12 0x13 op
  | .reserved14To17 op => opselBetween 0x14 0x17 op
  | .reserved18To1F op => opselBetween 0x18 0x1F op
  | .reserved20To3F op => opselBetween 0x20 0x3F op
  | .reserved40To7F op => opselBetween 0x40 0x7F op
  | .reserved80ToFF op => opselBetween 0x80 0xFF op
  | .cmd48 _ _ _ => true
  | .rsp48 _ _ _ => true

end Sys2Proof
end

