-- ==== Sys2Proof/Decode.lean ====
section
/-! DEFINITION. Decoding and encoding (30_encoding.md): from an operation request or a bus frame to
an `Instr` and back, and the byte layouts of both. -/

namespace Sys2Proof

/-! ## Frames: fields and bytes (R40, R60 to R64) -/

/-- R63: `start_ok`, `f[47] = 0`. -/
def frameStartOk (f : Frame) : Bool := !f.getLsbD 47

/-- R63: `dir_ok`, `f[46] = 1` (host to slave). -/
def frameDirOk (f : Frame) : Bool := f.getLsbD 46

/-- R63: `end_ok`, `f[0] = 1`. -/
def frameEndOk (f : Frame) : Bool := f.getLsbD 0

/-- R63: `index = f[45:40]`. -/
def frameIndex (f : Frame) : Index := f.extractLsb' 40 6

/-- R63: `arg = f[39:8]` of a command; the payload of a response (R62). -/
def frameArg (f : Frame) : Word := f.extractLsb' 8 32

/-- R63: `crc = f[7:1]`. -/
def frameCrc (f : Frame) : Crc7 := f.extractLsb' 1 7

/-- `h = f[47:8]`, the 40 bits the CRC covers (R65). -/
def frameHead (f : Frame) : BitVec 40 := f.extractLsb' 8 40

/-- R63: a command frame is well-formed when all three framing bits are right. -/
def frameWellFormed (f : Frame) : Bool := frameStartOk f && frameDirOk f && frameEndOk f

/-- `start ‖ dir ‖ index ‖ word`: the first 40 bits of a frame, start 0 (R61, R62). -/
def headBits (dir : Bool) (index : Index) (word : Word) : BitVec 40 :=
  0#1 ++ BitVec.ofBool dir ++ index ++ word

/-- `h ‖ c ‖ 0b1` (R61, R64). -/
def closeFrame (h : BitVec 40) (c : Crc7) : Frame :=
  h ++ c ++ 1#1

/-- R61: a command frame from its fields. -/
def commandFrame (index : Index) (arg : Word) (crc : Crc7) : Frame :=
  closeFrame (headBits true index arg) crc

/-- R62: a frame of the response format from its fields. -/
def responseFrame (index : Index) (payload : Word) (crc : Crc7) : Frame :=
  closeFrame (headBits false index payload) crc

/-- R40: byte `k` of a frame is `f[47 - 8k : 40 - 8k]`; byte 0 is first on the bus. -/
def frameBytes (f : Frame) : List Byte :=
  [f.extractLsb' 40 8, f.extractLsb' 32 8, f.extractLsb' 24 8,
   f.extractLsb' 16 8, f.extractLsb' 8 8, f.extractLsb' 0 8]

/-! ## The packet: what reaches the decoder -/

/-- Why the decoder rejects what it is given. -/
inductive DecodeError
  /-- The start bit `f[47]` is 1: the frame fits neither format of R61, R62. -/
  | frameStartBit
  /-- The end bit `f[0]` is 0: the frame fits neither format of R61, R62. -/
  | frameEndBit
  /-- A frame is exactly 48 bits (R60, R72): these are not six bytes. -/
  | frameLength
  /-- A request has an OPSEL (R73): there is no byte at all. -/
  | requestEmpty
deriving DecidableEq, Repr

/-- The two kinds of encoding of this block (30_encoding.md): an operation request on the driver
port, a frame on the bus. -/
inductive Packet
  | request (r : Request)
  | frame (f : Frame)
deriving DecidableEq, Repr

/-- The two places where bytes reach the block. -/
inductive Channel
  | driverPort
  | bus
deriving DecidableEq, Repr

/-! ## Decoding -/

/-- R75, R76: the six reserved ranges 0x12 to 0xFF. -/
def decodeReserved (op : Opsel) : Instr :=
  if op.toNat ≤ 0x13 then .reserved12To13 op
  else if op.toNat ≤ 0x17 then .reserved14To17 op
  else if op.toNat ≤ 0x1F then .reserved18To1F op
  else if op.toNat ≤ 0x3F then .reserved20To3F op
  else if op.toNat ≤ 0x7F then .reserved40To7F op
  else .reserved80ToFF op

/-- R73 to R76: `OPSEL` is matched on all 8 bits; the fields an operation does not use are ignored.
Every request decodes. -/
def decodeRequest (r : Request) : Instr :=
  match r.opsel.toNat with
  | 0x00 => .cardType
  | 0x01 => .cardMode
  | 0x02 => .setupBus
  | 0x03 => .init
  | 0x04 => .fifoReady r.a
  | 0x05 => .waitForReset r.a r.b
  | 0x06 => .waitWhileBusy r.a
  | 0x07 => .readData r.buf
  | 0x08 => .writeData r.buf
  | 0x09 => .sendTuning r.a r.b
  | 0x0A => .interrupt
  | 0x0B => .setInterrupt r.a
  | 0x0C => .clearAllInterrupt
  | 0x0D => .responseInterrupt
  | 0x0E => .setResponseInterrupt r.a
  | 0x0F => .clearAllResponseInterrupt
  | 0x10 => .readCommand
  | 0x11 => .writeResponse (r.a.extractLsb' 0 6) (r.a.getLsbD 8) r.b
  | _ => decodeReserved r.opsel

/-- R61, R62: the two formats differ in bit 46; a frame with a wrong start or end bit fits neither. -/
def decodeFrame (f : Frame) : Except DecodeError Instr :=
  if !frameStartOk f then .error .frameStartBit
  else if !frameEndOk f then .error .frameEndBit
  else if frameDirOk f then .ok (.cmd48 (frameIndex f) (frameArg f) (frameCrc f))
  else .ok (.rsp48 (frameIndex f) (frameArg f) (frameCrc f))

def decode : Packet → Except DecodeError Instr
  | .request r => .ok (decodeRequest r)
  | .frame f => decodeFrame f

/-- Four bytes as a word, least significant byte first; absent bytes read as 0.
DESIGN CHOICE (log 11, safe): the spec gives an operation request no byte layout. -/
def wordOfBytes (bs : List Byte) : Word :=
  (bs[3]?.getD 0 ++ bs[2]?.getD 0 ++ bs[1]?.getD 0 ++ bs[0]?.getD 0 : BitVec 32)

/-- A word as four bytes, least significant byte first (log 11). -/
def wordBytes (w : Word) : List Byte :=
  [w.extractLsb' 0 8, w.extractLsb' 8 8, w.extractLsb' 16 8, w.extractLsb' 24 8]

/-- DESIGN CHOICE (log 11, safe): the bytes of a request are OPSEL, the four bytes of `A`, the four
bytes of `B`, then BUF; operand bytes that are absent are 0. -/
def requestOfBytes : List Byte → Except DecodeError Request
  | [] => .error .requestEmpty
  | op :: rest =>
    .ok { opsel := op, a := wordOfBytes (rest.take 4), b := wordOfBytes ((rest.drop 4).take 4),
          buf := rest.drop 8 }

def requestBytes (r : Request) : List Byte :=
  r.opsel :: (wordBytes r.a ++ wordBytes r.b ++ r.buf)

/-- R40: six bytes, most significant first. -/
def frameOfBytes : List Byte → Except DecodeError Frame
  | [b0, b1, b2, b3, b4, b5] => .ok (b0 ++ b1 ++ b2 ++ b3 ++ b4 ++ b5 : BitVec 48)
  | _ => .error .frameLength

def packetOfBytes : Channel → List Byte → Except DecodeError Packet
  | .driverPort, bs => (requestOfBytes bs).map .request
  | .bus, bs => (frameOfBytes bs).map .frame

/-- The decoder on bytes: total, rejecting by name. -/
def decodeBytes (ch : Channel) (bs : List Byte) : Except DecodeError Instr :=
  packetOfBytes ch bs >>= decode

/-! ## Encoding -/

/-- R74: `A` of `write_response`: `A[5:0]` the index, `A[8]` with_crc, other bits 0. -/
def responseOperand (index : Index) (withCrc : Bool) : Word :=
  (0#23 ++ BitVec.ofBool withCrc ++ 0#2 ++ index : BitVec 32)

/-- A request whose `B` and BUF are unused. -/
def plainRequest (op : Opsel) (a : Word := 0) (b : Word := 0) : Packet :=
  .request { opsel := op, a := a, b := b, buf := [] }

/-- R73 to R76, R61, R62: the request or frame of an instruction; unused fields are 0 or empty. -/
def encode : Instr → Packet
  | .cardType => plainRequest 0x00
  | .cardMode => plainRequest 0x01
  | .setupBus => plainRequest 0x02
  | .init => plainRequest 0x03
  | .fifoReady status => plainRequest 0x04 status
  | .waitForReset line timeout => plainRequest 0x05 line timeout
  | .waitWhileBusy timeoutUs => plainRequest 0x06 timeoutUs
  | .readData buf => .request { opsel := 0x07, a := 0, b := 0, buf := buf }
  | .writeData buf => .request { opsel := 0x08, a := 0, b := 0, buf := buf }
  | .sendTuning mode width => plainRequest 0x09 mode width
  | .interrupt => plainRequest 0x0A
  | .setInterrupt v => plainRequest 0x0B v
  | .clearAllInterrupt => plainRequest 0x0C
  | .responseInterrupt => plainRequest 0x0D
  | .setResponseInterrupt v => plainRequest 0x0E v
  | .clearAllResponseInterrupt => plainRequest 0x0F
  | .readCommand => plainRequest 0x10
  | .writeResponse index withCrc payload =>
      plainRequest 0x11 (responseOperand index withCrc) payload
  | .reserved12To13 op => plainRequest op
  | .reserved14To17 op => plainRequest op
  | .reserved18To1F op => plainRequest op
  | .reserved20To3F op => plainRequest op
  | .reserved40To7F op => plainRequest op
  | .reserved80ToFF op => plainRequest op
  | .cmd48 index arg crc => .frame (commandFrame index arg crc)
  | .rsp48 index payload crc => .frame (responseFrame index payload crc)

def Packet.channel : Packet → Channel
  | .request _ => .driverPort
  | .frame _ => .bus

def Packet.bytes : Packet → List Byte
  | .request r => requestBytes r
  | .frame f => frameBytes f

/-! ## The numbering of spec/opcode_table.json -/

/-- The `n` bytes of a number, least significant first. -/
def bytesOfNat : Nat → Nat → List Byte
  | 0, _ => []
  | n + 1, w => BitVec.ofNat 8 w :: bytesOfNat n (w / 256)

/-- The channel and the bytes of a table word. A row of 48 bits is a frame: its bit `k` is `f[k]`, and
its most significant byte is first on the bus (R40). Every other row is an operation request: its
bits 7:0 are OPSEL, and the bits above follow the layout of `requestOfBytes` (log 11). Bits above
`nbits` are 0. -/
def tableBytes (nbits w : Nat) : Channel × List Byte :=
  if nbits = 48 then (.bus, frameBytes (BitVec.ofNat 48 w))
  else (.driverPort, bytesOfNat ((nbits + 7) / 8) (w % 2 ^ nbits))

/-- The instruction the decoder reads from a table word. -/
def decodeTableWord (nbits w : Nat) : Option Instr :=
  (decodeBytes (tableBytes nbits w).1 (tableBytes nbits w).2).toOption

/-! ## Pseudo-operations (R85); the fourth, `cmd(i, a)`, is `Machine.cmd` of Machine/Codec.lean -/

/-- R85 `bringup`: `init` ; `setup_bus`. -/
def bringup : List Instr := [.init, .setupBus]

/-- R85 `recover`: `wait_for_reset All, T` ; `init` ; `setup_bus`. -/
def recover (timeout : Word) : List Instr := [.waitForReset 0 timeout, .init, .setupBus]

/-- R85 `drain T`: `wait_while_busy T`. -/
def drain (timeout : Word) : List Instr := [.waitWhileBusy timeout]

end Sys2Proof
end

