-- ==== Sys2Proof/Config.lean ====
section
/-! DEFINITION. What an implementation fixes (the parameters of R4) and the free values: the
unspecified register contents (`any`, R6) and the choice of the next step of the other agents (R7).
The free values are uninterpreted: nothing can be proved of what they are. -/

namespace Sys2Proof

/-- One entry of `LEGAL_CMD`: the commands with this index whose argument agrees with `value` on the
bits of `mask`. Every predicate on (index, argument) is a list of such entries. -/
structure CmdPattern where
  index : Index
  mask  : Word
  value : Word
deriving DecidableEq, Repr, Inhabited

def CmdPattern.accepts (p : CmdPattern) (index : Index) (arg : Word) : Bool :=
  p.index == index && (arg &&& p.mask) == p.value

/-- R4: the OPEN parameters. DESIGN CHOICE (log 4, safe): they are plain data, so that one model
covers every value and can be run at any of them. -/
structure Params where
  /-- `FIFO_DEPTH`: capacity of each FIFO in bytes. -/
  fifoDepth : Nat
  /-- `T_CFG_US`: the configured timeout in microseconds; `none` is `INF`. -/
  tCfgUs    : Option Nat
  /-- `LEGAL_CMD` (R69). -/
  legal     : List CmdPattern
  /-- `DATA_CMD` (R70). -/
  dataCmds  : List Index
deriving DecidableEq, Repr

/-- `LegalCmd(index, arg)`, R69. -/
def Params.legalCmd (p : Params) (index : Index) (arg : Word) : Bool :=
  p.legal.any fun q => q.accepts index arg

/-- `index in DATA_CMD`, R70. -/
def Params.isDataCmd (p : Params) (index : Index) : Bool :=
  p.dataCmds.contains index

/-- Is some argument legal with an index, by a list of `LEGAL_CMD` entries? An entry accepts an
argument exactly when it accepts its own `value`. -/
def legalIndex (legal : List CmdPattern) (index : Index) : Bool :=
  legal.any fun q => q.accepts index q.value

/-- The constraints of R4 and of D8's row: `FIFO_DEPTH >= 1`, `LEGAL_CMD` holds of (5, any argument)
(R69), and every member of `DATA_CMD` is legal under `LEGAL_CMD` (R70; with some argument: log 18). -/
structure Params.valid (p : Params) : Prop where
  fifoDepth : 1 ≤ p.fifoDepth
  legalFive : ∀ arg, p.legalCmd 5 arg = true
  dataLegal : ∀ index, p.isDataCmd index = true → ∃ arg, p.legalCmd index arg = true

/-- The defaults of R4 that the vectors of 95_test_vectors.md use: `FIFO_DEPTH = 4`,
`T_CFG_US = 100`, `LEGAL_CMD` the indices 0, 3, 5, 7, 15, 52, 53, `DATA_CMD` = 53. -/
def Params.vectors : Params where
  fifoDepth := 4
  tCfgUs := some 100
  legal := [⟨0, 0, 0⟩, ⟨3, 0, 0⟩, ⟨5, 0, 0⟩, ⟨7, 0, 0⟩, ⟨15, 0, 0⟩, ⟨52, 0, 0⟩, ⟨53, 0, 0⟩]
  dataCmds := [53]

namespace Config

/-- `FIFO_DEPTH - 1`: any natural number (log 4). -/
opaque fifoDepthPred : Nat

/-- `T_CFG_US`: any natural number or `INF` (log 4). -/
opaque tCfgUs : Option Nat

/-- The commands `LEGAL_CMD` holds of besides index 5 (log 4). -/
opaque legalMore : List CmdPattern

/-- `LEGAL_CMD`: index 5 with any argument, and whatever else (log 4). -/
def legal : List CmdPattern := ⟨5, 0, 0⟩ :: legalMore

/-- The indices `DATA_CMD` is drawn from (log 4). -/
opaque dataPool : List Index

/-- `DATA_CMD`: any list of indices that are legal under `LEGAL_CMD` (R70, log 18). -/
def dataCmds : List Index := dataPool.filter (legalIndex legal)

/-- The parameters of the machine that `State.reset` starts: any values within R4's constraints. -/
def params : Params where
  fifoDepth := fifoDepthPred + 1
  tCfgUs := tCfgUs
  legal := legal
  dataCmds := dataCmds

/-- The step another agent takes where the inputs of the state name none, by draw number (log 1). -/
opaque freeStep : Nat → EnvStep

/-- `cmd_latch` at power-on, R33 (log 5). -/
opaque anyCmdLatch : Nat → Frame

/-- `cur_index` at power-on, R33 (log 5). -/
opaque anyCurIndex : Nat → Index

/-- `resp_reg` at power-on, R33 (log 5). -/
opaque anyRespReg : Nat → Frame

/-- `tuning_mode` at power-on and after `HW_RESET(All)`, R33, R156 (log 5). -/
opaque anyTuningMode : Nat → TuningMode

/-- `tuning_width` at power-on and after `HW_RESET(All)`, R33, R156 (log 5). -/
opaque anyTuningWidth : Nat → TuningWidth

/-- `int_st` at power-on and after `HW_RESET(All)`, R33, R156 (log 5). -/
opaque anyIntSt : Nat → Word

/-- `rint_st` at power-on and after `HW_RESET(All)`, R33, R156 (log 5). -/
opaque anyRintSt : Nat → Word

end Config

end Sys2Proof
end

