-- ==== Sys2Proof/Machine/State.lean ====
section
/-! DEFINITION. The state of the block (10_state.md), the results an operation can have (R77, R170),
the reasons a step can stop, and the state after power-on (R33, R190). -/

namespace Sys2Proof.Machine

/-- R12: the six phases. -/
inductive Phase
  | uninitialized
  | standby
  | commandPending
  | responseReady
  | dataTransfer
  | error
deriving DecidableEq, Repr, Inhabited

/-- R13: the record of the operation in progress on the driver port. The length `n` of a data
operation is the length of its buffer (log 7). -/
inductive Port
  | idle
  | readCommand (elapsed : Nat)
  | readData (buf : List Byte) (i elapsed : Nat)
  | writeData (buf : List Byte) (i elapsed : Nat)
  | waitWhileBusy (timeoutUs : Word) (elapsed : Nat)
  | waitForReset (line : ResetLine) (timeoutUs : Word) (elapsed : Nat)
deriving DecidableEq, Repr, Inhabited

/-- R24: the request bit of each reset line. -/
structure ResetRequests where
  all  : Bool
  cmd  : Bool
  data : Bool
deriving DecidableEq, Repr, Inhabited

/-- R170: the closed set of error results. -/
inductive Err
  | general
  | illegalCommand
  | crc
  | unimplemented
deriving DecidableEq, Repr, Inhabited

/-- R111: the Command value `read_command` returns. -/
structure Command where
  index : Index
  arg   : Word
  crc   : Crc7
deriving DecidableEq, Repr, Inhabited

/-- The values inside `Ok` (R75). -/
inductive Value
  | unit
  | bool (b : Bool)
  | word (w : Word)
  | command (c : Command)
deriving DecidableEq, Repr, Inhabited

/-- R77: the result of an operation; the two identity queries have no error channel (R91, R92). -/
inductive Result
  | cardType (t : CardType)
  | cardMode (m : CardMode)
  | ok (v : Value)
  | err (e : Err)
deriving DecidableEq, Repr, Inhabited

/-- What the caller has when its operation ends: the result, and its buffer as it then stands (empty
for an operation without one). -/
structure Completion where
  result : Result
  buf    : List Byte
deriving DecidableEq, Repr, Inhabited

/-- The state: the record of R10, field by field, then the model's own fields (log 1, 4, 5, 6). -/
structure State where
  /-- R12 -/
  phase        : Phase
  /-- R13 -/
  port         : Port
  /-- R14 -/
  busReady     : Bool
  /-- R15 -/
  cmdLatch     : Frame
  /-- R16 -/
  cmdPending   : Bool
  /-- R17 -/
  cmdCrcFail   : Bool
  /-- R18 -/
  curIndex     : Index
  /-- R19 -/
  respReg      : Frame
  /-- R20 -/
  respReady    : Bool
  /-- R21: receive FIFO, head first. -/
  rxf          : List Byte
  /-- R22: transmit FIFO, head first. -/
  txf          : List Byte
  /-- R23 -/
  xferFault    : Bool
  /-- R24 -/
  rstReq       : ResetRequests
  /-- R25 -/
  tuningActive : Bool
  /-- R25 -/
  tuningMode   : TuningMode
  /-- R25 -/
  tuningWidth  : TuningWidth
  /-- R26, R27: transport-level interrupt status. -/
  intSt        : Word
  /-- R26, R28: response-level interrupt status. -/
  rintSt       : Word
  /-- The parameters of R4; no step writes them (log 4). -/
  params       : Params
  /-- What the outside presents next, oldest first (log 1). -/
  inputs       : List Input
  /-- What the driver's caller has received, oldest first (log 6). -/
  results      : List Completion
  /-- The frames the host took, oldest first (log 6). -/
  hostFrames   : List Frame
  /-- The bytes the host took from `txf`, oldest first (log 6). -/
  hostPopped   : List Byte
  /-- The bytes the host put into `rxf`, oldest first (log 6). -/
  hostPushed   : List Byte
  /-- The number of free values drawn so far (log 5). -/
  draws        : Nat
deriving DecidableEq, Repr

/-- The machine's own stops. -/
inductive Fault
  /-- Raised by the POLL of `read_data` and `write_data` (R123, R126) when `i` is no index of the caller
  buffer, which is "indexed from 0 to `n - 1`" (R32). Safe: R35 item 9 rules such states out (log 8). -/
  | bufferIndex
deriving DecidableEq, Repr

/-- The instructions a meaning turns away. -/
inductive Refusal
  /-- Raised by `exec` for an instruction that has no meaning yet. Safe. -/
  | notModelled (mnemonic : String)
  /-- Raised by every driver operation when the port is not `Idle`: "the driver has no step while an
  operation is in flight" (R8, R199). `step` never presents one then. Safe (log 3). -/
  | operationInFlight
deriving DecidableEq, Repr

/-- R33, R190: the state at power-on. The fields the spec leaves unspecified hold draw 0 of their free
value (log 5); the model's own fields are DESIGN CHOICE (log 4, 6, 12). -/
def State.reset : State where
  phase        := .uninitialized
  port         := .idle
  busReady     := false
  cmdLatch     := Config.anyCmdLatch 0
  cmdPending   := false
  cmdCrcFail   := false
  curIndex     := Config.anyCurIndex 0
  respReg      := Config.anyRespReg 0
  respReady    := false
  rxf          := []
  txf          := []
  xferFault    := false
  rstReq       := ⟨false, false, false⟩
  tuningActive := false
  tuningMode   := Config.anyTuningMode 0
  tuningWidth  := Config.anyTuningWidth 0
  intSt        := Config.anyIntSt 0
  rintSt       := Config.anyRintSt 0
  params       := Config.params
  inputs       := []
  results      := []
  hostFrames   := []
  hostPopped   := []
  hostPushed   := []
  draws        := 1

end Sys2Proof.Machine
end

