-- ==== Sys2Proof/Machine/Operands.lean ====
section
/-! DEFINITION. Operand forms: the codes of the enumerations (R78 to R81, R12, R77), and the caller
buffer (R6: MemRead, MemWrite). -/

namespace Sys2Proof.Machine

/-- R78: `ReadReady` = 0, `WriteReady` = 1; any other word is no member (R83). -/
def fifoStatusOf (a : Word) : Option FifoStatus :=
  if a = 0 then some .readReady
  else if a = 1 then some .writeReady
  else none

/-- R79: `All` = 0, `Cmd` = 1, `Data` = 2; any other word is no member (R83). -/
def resetLineOf (a : Word) : Option ResetLine :=
  if a = 0 then some .all
  else if a = 1 then some .cmd
  else if a = 2 then some .data
  else none

/-- R80: `Sdr50` = 0, `Sdr104` = 1, `Hs200` = 2; any other word is no member (R83). -/
def tuningModeOf (a : Word) : Option TuningMode :=
  if a = 0 then some .sdr50
  else if a = 1 then some .sdr104
  else if a = 2 then some .hs200
  else none

/-- R81: `Bits4` = 0, `Bits8` = 1; any other word is no member (R83). -/
def tuningWidthOf (b : Word) : Option TuningWidth :=
  if b = 0 then some .bits4
  else if b = 1 then some .bits8
  else none

/-- R12: the phase in 3 bits; 6 and 7 are never held. -/
def Phase.code : Phase → BitVec 3
  | .uninitialized => 0
  | .standby => 1
  | .commandPending => 2
  | .responseReady => 3
  | .dataTransfer => 4
  | .error => 5

/-- R77, R170: the numeric code of an error. -/
def Err.code : Err → Nat
  | .general => 0
  | .illegalCommand => 1
  | .crc => 2
  | .unimplemented => 3

/-- R12: `OPERATIONAL` = Standby, CommandPending, ResponseReady, DataTransfer. -/
def Phase.operational : Phase → Bool
  | .uninitialized => false
  | .standby => true
  | .commandPending => true
  | .responseReady => true
  | .dataTransfer => true
  | .error => false

/-- R12: `INITIALIZED` = every phase but Uninitialized. -/
def Phase.initialized : Phase → Bool
  | .uninitialized => false
  | .standby => true
  | .commandPending => true
  | .responseReady => true
  | .dataTransfer => true
  | .error => true

/-- `port = Idle`. -/
def Port.isIdle : Port → Bool
  | .idle => true
  | .readCommand _ => false
  | .readData _ _ _ => false
  | .writeData _ _ _ => false
  | .waitWhileBusy _ _ => false
  | .waitForReset _ _ _ => false

/-- R160: `port.elapsed <- port.elapsed + 1`; `Idle` has no `elapsed`. -/
def Port.tick : Port → Port
  | .idle => .idle
  | .readCommand elapsed => .readCommand (elapsed + 1)
  | .readData buf i elapsed => .readData buf i (elapsed + 1)
  | .writeData buf i elapsed => .writeData buf i (elapsed + 1)
  | .waitWhileBusy timeoutUs elapsed => .waitWhileBusy timeoutUs (elapsed + 1)
  | .waitForReset line timeoutUs elapsed => .waitForReset line timeoutUs (elapsed + 1)

/-- R24: `rst_req[line]`. -/
def ResetRequests.get (q : ResetRequests) : ResetLine → Bool
  | .all => q.all
  | .cmd => q.cmd
  | .data => q.data

/-- R24: `rst_req[line] <- b`. -/
def ResetRequests.set (q : ResetRequests) (b : Bool) : ResetLine → ResetRequests
  | .all => { q with all := b }
  | .cmd => { q with cmd := b }
  | .data => { q with data := b }

/-- All three request bits 0. -/
def ResetRequests.none : ResetRequests := ⟨false, false, false⟩

/-- R6 `MemRead(buf, i)`; `none` where `i` is no index of the buffer. -/
def bufRead (buf : List Byte) (i : Nat) : Option Byte := buf[i]?

/-- R6 `MemWrite(buf, i, b)`; `none` where `i` is no index of the buffer. -/
def bufWrite (buf : List Byte) (i : Nat) (b : Byte) : Option (List Byte) :=
  if i < buf.length then some (buf.set i b) else none

end Sys2Proof.Machine
end

