-- ==== Sys2Proof/Machine/Flags.lean ====
section
/-! DEFINITION. The CRC and every flag computation: the CRC check (R65, R66), the derived signals
`busy`, `rd_ready`, `wr_ready` (R29, R30), the interrupt bits (R27, R28), and the deadline (R68). -/

namespace Sys2Proof.Machine

/-- R66, one round: shift in the feedback bit `h[k] XOR c[6]`; a feedback of 1 subtracts
`G(x) = x^7 + x^3 + 1`. -/
def crcRound (c : Crc7) (bit : Bool) : Crc7 :=
  if bit ^^ c.getLsbD 6 then (c <<< 1) ^^^ 0x09#7 else c <<< 1

/-- R66: the rounds for bits `k - 1` down to 0 of `h`. -/
def crcRounds (h : BitVec 40) : Nat → Crc7 → Crc7
  | 0, c => c
  | k + 1, c => crcRounds h k (crcRound c (h.getLsbD k))

/-- R66: initial value 0, most significant bit of `h` first. -/
def crc7 (h : BitVec 40) : Crc7 := crcRounds h 40 0

/-- R150: the CRC check the hardware makes at latch time, `crc7(f[47:8]) != f[7:1]`. -/
def crcBad (f : Frame) : Bool := crc7 (frameHead f) != frameCrc f

/-- R29: `busy = resp_ready OR tuning_active OR (len(txf) > 0)`. -/
def State.busy (s : State) : Bool := s.respReady || s.tuningActive || decide (0 < s.txf.length)

/-- R30: `rd_ready = (len(rxf) > 0)`. -/
def State.rdReady (s : State) : Bool := decide (0 < s.rxf.length)

/-- R30: `wr_ready = (len(txf) < FIFO_DEPTH)`. -/
def State.wrReady (s : State) : Bool := decide (s.txf.length < s.params.fifoDepth)

/-- R152: `len(rxf) < FIFO_DEPTH`, the receive FIFO has room for the host. -/
def State.rxRoom (s : State) : Bool := decide (s.rxf.length < s.params.fifoDepth)

/-- `elapsed >= T` for a timeout operand of an operation (R68). -/
def expired (timeoutUs : Word) (elapsed : Nat) : Bool := decide (timeoutUs.toNat ≤ elapsed)

/-- `elapsed >= T_CFG_US`: never with `INF` (R68). -/
def cfgExpired (tCfgUs : Option Nat) (elapsed : Nat) : Bool :=
  match tCfgUs with
  | none => false
  | some t => decide (t ≤ elapsed)

/-- R27: the events of the transport-level group. -/
inductive TransportEvent
  | rxData
  | txEmpty
  | xferFault
  | resetDone
  | tuningDone
deriving DecidableEq, Repr

/-- R28: the events of the response-level group. -/
inductive ResponseEvent
  | cmdRecv
  | cmdCrcErr
  | respSent
deriving DecidableEq, Repr

/-- R27: which bit of `int_st` an event sets (log 13). -/
def transportBit : TransportEvent → Nat
  | .rxData => 0
  | .txEmpty => 1
  | .xferFault => 2
  | .resetDone => 3
  | .tuningDone => 4

/-- R28: which bit of `rint_st` an event sets (log 13). -/
def responseBit : ResponseEvent → Nat
  | .cmdRecv => 0
  | .cmdCrcErr => 1
  | .respSent => 2

/-- `v[k] <- 1`, the other bits unchanged. -/
def setBit (v : Word) (k : Nat) : Word := v ||| (1#32 <<< k)

/-- R26: a hardware event ORs its bit into `int_st`. -/
def State.raiseTransport (s : State) (e : TransportEvent) : State :=
  { s with intSt := setBit s.intSt (transportBit e) }

/-- R26: a hardware event ORs its bit into `rint_st`. -/
def State.raiseResponse (s : State) (e : ResponseEvent) : State :=
  { s with rintSt := setBit s.rintSt (responseBit e) }

end Sys2Proof.Machine
end

