-- ==== Sys2Proof/Machine/Ops.lean ====
section
/-! DEFINITION. The shared operations over the state: completing an operation (R6), the error
results (R175, R177), the FIFOs (R21, R22), and the resets (R94, R156). -/

namespace Sys2Proof.Machine

/-- The outcome of a step. -/
abbrev Out := Host.Outcome State Fault Refusal

/-! ## Completing an operation -/

/-- R6 `complete(res)`: the operation ends, `port <- Idle`, and the caller receives `res` together with
its buffer as it stands. -/
def State.complete (s : State) (r : Result) (buf : List Byte) : State :=
  { s with port := .idle, results := s.results ++ [⟨r, buf⟩] }

/-- R175: misuse. The result is `Err(General)` and no field of the block is written. -/
def State.misuse (s : State) (buf : List Byte) : State :=
  s.complete (.err .general) buf

/-- R177: a fault, this block's exception entry. After the cleanup of its own rule the failing step
writes `phase <- Error` and completes with `Err(e)`; nothing is saved and nothing else changes. -/
def State.enterError (s : State) (e : Err) (buf : List Byte) : State :=
  ({ s with phase := .error }).complete (.err e) buf

/-- The phase after a completed reset line: the way back out of Error (R156, R179). All always leaves
Uninitialized; Cmd and Data leave Standby from the phases their half serves and from Error. -/
def phaseAfterReset : ResetLine → Phase → Phase
  | .all, _ => .uninitialized
  | .cmd, .commandPending => .standby
  | .cmd, .responseReady => .standby
  | .cmd, .error => .standby
  | .cmd, .uninitialized => .uninitialized
  | .cmd, .standby => .standby
  | .cmd, .dataTransfer => .dataTransfer
  | .data, .dataTransfer => .standby
  | .data, .error => .standby
  | .data, .uninitialized => .uninitialized
  | .data, .standby => .standby
  | .data, .commandPending => .commandPending
  | .data, .responseReady => .responseReady

/-- R8, R199: a driver operation is issued only on an idle port. The operation's step takes the
block from `s` to `t`. -/
def onIdlePort (s t : State) : Out :=
  if s.port.isIdle then .next t else .refused .operationInFlight

/-! ## The FIFOs (R21, R22, R47) -/

/-- Append a byte at the tail. -/
def fifoPut (q : List Byte) (b : Byte) : List Byte := q ++ [b]

/-- The capacity bound of R21, R22: what every FIFO operation keeps. -/
def fifoWf (depth : Nat) (q : List Byte) : Bool := decide (q.length ≤ depth)

/-! ## The resets -/

/-- The codec half: latch, command flags, `cur_index`, response register and flag (R94, R156). -/
def State.resetCodec (s : State) : State :=
  { s with cmdLatch := 0, cmdPending := false, cmdCrcFail := false, curIndex := 0,
           respReg := 0, respReady := false }

/-- The data half: both FIFOs, `xfer_fault`, `tuning_active` (R94, R156). -/
def State.resetData (s : State) : State :=
  { s with rxf := [], txf := [], xferFault := false, tuningActive := false }

/-- R94: what `init` writes, up to completing. -/
def State.initialize (s : State) : State :=
  { s.resetCodec.resetData with
      rstReq := .none, intSt := 0, rintSt := 0, busReady := false, phase := .standby }

/-- R156 `HW_RESET(All)`: every field to its reset value but `port`; the fields of R33 that have none
get the next draw of their free value (log 5). -/
def State.resetAll (s : State) : State :=
  { s.resetCodec.resetData with
      phase := .uninitialized, busReady := false, rstReq := .none,
      tuningMode := Config.anyTuningMode s.draws, tuningWidth := Config.anyTuningWidth s.draws,
      intSt := Config.anyIntSt s.draws, rintSt := Config.anyRintSt s.draws,
      draws := s.draws + 1 }

/-- R156 `HW_RESET(Cmd)`. -/
def State.resetCmdLine (s : State) : State :=
  { s.resetCodec.raiseTransport .resetDone with
      rstReq := s.rstReq.set false .cmd, phase := phaseAfterReset .cmd s.phase }

/-- R156 `HW_RESET(Data)`. -/
def State.resetDataLine (s : State) : State :=
  { s.resetData.raiseTransport .resetDone with
      rstReq := s.rstReq.set false .data, phase := phaseAfterReset .data s.phase }

/-- R156: the reset a line performs. -/
def State.performReset (s : State) : ResetLine → State
  | .all => s.resetAll
  | .cmd => s.resetCmdLine
  | .data => s.resetDataLine

end Sys2Proof.Machine
end

