-- ==== Sys2Proof/Machine/Codec.lean ====
section
/-! DEFINITION. The command/response codec (42_command_response.md): `read_command`,
`write_response`, and the latching of a frame (R150), which is what a CMD48 or RSP48 word does. -/

namespace Sys2Proof.Machine

/-- R110: the issue step of `read_command`. -/
def execReadCommand (s : State) : Out :=
  onIdlePort s <|
    if s.phase = .standby ∧ s.busReady = true then { s with port := .readCommand 0 }
    else s.misuse []

/-- R111: the Command value of a frame. -/
def commandOf (f : Frame) : Command := ⟨frameIndex f, frameArg f, frameCrc f⟩

/-- R71: is a frame whose CRC passed a legal command? -/
def frameLegal (p : Params) (f : Frame) : Bool :=
  frameWellFormed f && p.legalCmd (frameIndex f) (frameArg f)

/-- R112: both flags are cleared whatever the outcome. -/
def State.consumeLatch (s : State) : State :=
  { s with cmdPending := false, cmdCrcFail := false }

/-- R112: the POLL of `read_command`: a pending frame before the deadline; `Crc` before
`IllegalCommand` before success. -/
def pollReadCommand (elapsed : Nat) (s : State) : State :=
  if s.cmdPending then
    if s.cmdCrcFail then s.consumeLatch.enterError .crc []
    else if frameLegal s.params s.cmdLatch then
      ({ s.consumeLatch with
          curIndex := frameIndex s.cmdLatch, phase := .commandPending }).complete
        (.ok (.command (commandOf s.cmdLatch))) []
    else s.consumeLatch.enterError .illegalCommand []
  else if cfgExpired s.params.tCfgUs elapsed then s.enterError .general []
  else s

/-- R85 `cmd(i, a)`: the well-formed command frame with a good CRC. -/
def cmd (index : Index) (arg : Word) : Frame :=
  commandFrame index arg (crc7 (headBits true index arg))

/-- R64: the frame of a Response `(index, payload, with_crc)`. -/
def encodeResponse (index : Index) (payload : Word) (withCrc : Bool) : Frame :=
  responseFrame index payload
    (if withCrc then crc7 (headBits false index payload) else 0b1111111#7)

/-- R114: the phase `write_response` enters. -/
def phaseAfterResponse (s : State) : Phase :=
  if s.params.isDataCmd s.curIndex then .dataTransfer else .responseReady

/-- R114: `write_response(R)`. -/
def execWriteResponse (index : Index) (withCrc : Bool) (payload : Word) (s : State) : Out :=
  onIdlePort s <|
    if s.phase = .commandPending ∧ s.busReady = true then
      ({ s with respReg := encodeResponse index payload withCrc, respReady := true,
                phase := phaseAfterResponse s }).complete (.ok .unit) []
    else s.misuse []

/-- R150: the latch is armed. -/
def State.latchArmed (s : State) : Bool :=
  decide (s.phase = .standby) && !s.cmdPending && !s.respReady

/-- R150: what latching `f` writes. -/
def State.latch (s : State) (f : Frame) : State :=
  let u := { s with cmdLatch := f, cmdPending := true, cmdCrcFail := crcBad f }
  let v := u.raiseResponse .cmdRecv
  if crcBad f then v.raiseResponse .cmdCrcErr else v

/-- R150 `HOST_SEND_COMMAND(f)`, for any 48-bit value; a frame presented when the step is not enabled
"is not latched and changes no state". -/
def hostSendCommand (f : Frame) (s : State) : Out :=
  .next (if s.latchArmed then s.latch f else s)

/-- A CMD48 word on the bus: the host sends this command frame (R61, R150; log 9). -/
def execCmd48 (index : Index) (arg : Word) (crc : Crc7) (s : State) : Out :=
  hostSendCommand (commandFrame index arg crc) s

/-- DEDUCED (log 9): an RSP48 word that reaches the block is a frame the host sends with the direction
bit 0; it is latched as any 48-bit value is (R150), and `read_command` rejects it (R71). -/
def execRsp48 (index : Index) (payload : Word) (crc : Crc7) (s : State) : Out :=
  hostSendCommand (responseFrame index payload crc) s

end Sys2Proof.Machine
end

