-- ==== Sys2Proof/Machine/DataEngine.lean ====
section
/-! DEFINITION. The data transfer engine (43_data_engine.md): `fifo_ready`, the two pumps,
`wait_while_busy`, `wait_for_reset`, each with its POLL. -/

namespace Sys2Proof.Machine

/-- R30: the signal `fifo_ready` reports. -/
def State.ready (s : State) : FifoStatus → Bool
  | .readReady => s.rdReady
  | .writeReady => s.wrReady

/-- R120: `fifo_ready(status)`; a word that is no member gives `Err(General)` (R83). -/
def execFifoReady (status : Word) (s : State) : Out :=
  onIdlePort s <|
    match s.phase.operational, fifoStatusOf status with
    | true, some d => s.complete (.ok (.bool (s.ready d))) []
    | _, _ => s.misuse []

/-- R122, R125: the guard of both pumps. -/
def State.pumpLegal (s : State) : Bool :=
  decide (s.phase = .dataTransfer) && s.busReady

/-- R122: the issue step of `read_data`; a length of 0 is satisfied at once. -/
def execReadData (buf : List Byte) (s : State) : Out :=
  onIdlePort s <|
    if s.pumpLegal then
      if buf.isEmpty then ({ s with phase := .standby }).complete (.ok .unit) buf
      else { s with port := .readData buf 0 0 }
    else s.misuse buf

/-- R125: the issue step of `write_data`; a length of 0 is satisfied at once. -/
def execWriteData (buf : List Byte) (s : State) : Out :=
  onIdlePort s <|
    if s.pumpLegal then
      if buf.isEmpty then ({ s with phase := .standby }).complete (.ok .unit) buf
      else { s with port := .writeData buf 0 0 }
    else s.misuse buf

/-- R123: the POLL of `read_data`: the fault flag, then a byte, then the deadline. -/
def pollReadData (buf : List Byte) (i elapsed : Nat) (s : State) : Out :=
  if s.xferFault then .next (s.enterError .general buf)
  else
    match s.rxf with
    | b :: rest =>
      match bufWrite buf i b with
      | some buf' =>
        let u := { s with rxf := rest }
        if i + 1 = buf.length then
          .next (({ u with phase := .standby }).complete (.ok .unit) buf')
        else .next { u with port := .readData buf' (i + 1) elapsed }
      | none => .fault .bufferIndex
    | [] =>
      if cfgExpired s.params.tCfgUs elapsed then .next (s.enterError .general buf) else .next s

/-- R126: the POLL of `write_data`: the fault flag, then a byte, then the deadline. -/
def pollWriteData (buf : List Byte) (i elapsed : Nat) (s : State) : Out :=
  if s.xferFault then .next (s.enterError .general buf)
  else if s.wrReady then
    match bufRead buf i with
    | some b =>
      let u := { s with txf := fifoPut s.txf b }
      if i + 1 = buf.length then
        .next (({ u with phase := .standby }).complete (.ok .unit) buf)
      else .next { u with port := .writeData buf (i + 1) elapsed }
    | none => .fault .bufferIndex
  else if cfgExpired s.params.tCfgUs elapsed then .next (s.enterError .general buf)
  else .next s

/-- R129: the issue step of `wait_while_busy`. -/
def execWaitWhileBusy (timeoutUs : Word) (s : State) : Out :=
  onIdlePort s <|
    if s.phase.operational then { s with port := .waitWhileBusy timeoutUs 0 } else s.misuse []

/-- R130: the POLL of `wait_while_busy`: the condition before the deadline. -/
def pollWaitWhileBusy (timeoutUs : Word) (elapsed : Nat) (s : State) : State :=
  if s.busy then
    if expired timeoutUs elapsed then s.enterError .general [] else s
  else s.complete (.ok .unit) []

/-- R133: the issue step of `wait_for_reset`: assert the line and wait. -/
def execWaitForReset (line timeout : Word) (s : State) : Out :=
  onIdlePort s <|
    match s.phase.initialized, resetLineOf line with
    | true, some r =>
      { s with rstReq := s.rstReq.set true r, port := .waitForReset r timeout 0 }
    | _, _ => s.misuse []

/-- R134: the POLL of `wait_for_reset`: done once the hardware has cleared the request; on expiry the
request is withdrawn. -/
def pollWaitForReset (line : ResetLine) (timeoutUs : Word) (elapsed : Nat) (s : State) : State :=
  if s.rstReq.get line then
    if expired timeoutUs elapsed then
      ({ s with rstReq := s.rstReq.set false line }).enterError .general []
    else s
  else s.complete (.ok .unit) []

end Sys2Proof.Machine
end

