-- ==== Sys2Proof/Machine/BusAgents.lean ====
section
/-! DEFINITION. The steps of the host, the hardware and the clock (45_bus_agents.md), other than
`HOST_SEND_COMMAND` (Codec.lean). A step that is not enabled is no step: nothing changes (log 2). -/

namespace Sys2Proof.Machine

/-- R151 `HOST_TAKE_RESPONSE`. -/
def hostTakeResponse (s : State) : Out :=
  .next <|
    if s.respReady then
      { s.raiseResponse .respSent with
          respReady := false, hostFrames := s.hostFrames ++ [s.respReg],
          phase := if s.phase = .responseReady then .standby else s.phase }
    else s

/-- R152 `HOST_PUSH_BYTE(b)`. -/
def hostPushByte (b : Byte) (s : State) : Out :=
  .next <|
    if s.phase.initialized && s.rxRoom then
      { s.raiseTransport .rxData with
          rxf := fifoPut s.rxf b, hostPushed := s.hostPushed ++ [b] }
    else s

/-- R153 `HOST_POP_BYTE`: `TX_EMPTY` is evaluated on the new `txf`. -/
def hostPopByte (s : State) : Out :=
  .next <|
    match s.txf with
    | [] => s
    | b :: rest =>
      let u := { s with txf := rest, hostPopped := s.hostPopped ++ [b] }
      if rest.isEmpty then u.raiseTransport .txEmpty else u

/-- R154 `BUS_FAULT`. -/
def busFault (s : State) : Out :=
  .next <|
    if s.phase = .dataTransfer then { s.raiseTransport .xferFault with xferFault := true } else s

/-- R156 `HW_RESET(line)`: only while the line's request bit is 1. -/
def hwReset (line : ResetLine) (s : State) : Out :=
  .next (if s.rstReq.get line then s.performReset line else s)

/-- R157 `HW_TUNING_DONE`. -/
def hwTuningDone (s : State) : Out :=
  .next <|
    if s.tuningActive then { s.raiseTransport .tuningDone with tuningActive := false } else s

/-- R159 `POLL`: by the record in `port`; not enabled while it is `Idle`. -/
def poll (s : State) : Out :=
  match s.port with
  | .idle => .next s
  | .readCommand elapsed => .next (pollReadCommand elapsed s)
  | .readData buf i elapsed => pollReadData buf i elapsed s
  | .writeData buf i elapsed => pollWriteData buf i elapsed s
  | .waitWhileBusy timeoutUs elapsed => .next (pollWaitWhileBusy timeoutUs elapsed s)
  | .waitForReset line timeoutUs elapsed => .next (pollWaitForReset line timeoutUs elapsed s)

/-- R160 `TICK`: one microsecond of the operation in flight; not enabled while `port` is `Idle`. -/
def clockTick (s : State) : Out :=
  .next { s with port := s.port.tick }

end Sys2Proof.Machine
end

