-- ==== Sys2Proof/Machine/Interrupts.lean ====
section
/-! DEFINITION. The interrupt surface and the tuning trigger (44_interrupt_tuning.md). The six
accessors share one guard: every phase but Uninitialized. -/

namespace Sys2Proof.Machine

/-- The common guard of the six accessors: `t` if the block is initialized, else misuse. -/
def accessor (s t : State) : Out :=
  onIdlePort s (if s.phase.initialized then t else s.misuse [])

/-- R140: the read does not clear. -/
def execInterrupt (s : State) : Out :=
  accessor s (s.complete (.ok (.word s.intSt)) [])

/-- R141: `int_st <- int_st OR v`. -/
def execSetInterrupt (v : Word) (s : State) : Out :=
  accessor s (({ s with intSt := s.intSt ||| v }).complete (.ok .unit) [])

/-- R142: `int_st <- 0`, read or unread. -/
def execClearAllInterrupt (s : State) : Out :=
  accessor s (({ s with intSt := 0 }).complete (.ok .unit) [])

/-- R143. -/
def execResponseInterrupt (s : State) : Out :=
  accessor s (s.complete (.ok (.word s.rintSt)) [])

/-- R144: `rint_st <- rint_st OR v`. -/
def execSetResponseInterrupt (v : Word) (s : State) : Out :=
  accessor s (({ s with rintSt := s.rintSt ||| v }).complete (.ok .unit) [])

/-- R145: `rint_st <- 0`. -/
def execClearAllResponseInterrupt (s : State) : Out :=
  accessor s (({ s with rintSt := 0 }).complete (.ok .unit) [])

/-- R146: the state part of the guard of `send_tuning`. -/
def State.tuningLegal (s : State) : Bool :=
  s.phase.operational && s.busReady && !s.tuningActive

/-- R146: arm the one-shot sequence. -/
def execSendTuning (mode width : Word) (s : State) : Out :=
  onIdlePort s <|
    match s.tuningLegal, tuningModeOf mode, tuningWidthOf width with
    | true, some m, some w =>
      ({ s with tuningActive := true, tuningMode := m, tuningWidth := w }).complete (.ok .unit) []
    | _, _, _ => s.misuse []

end Sys2Proof.Machine
end

