-- ==== Sys2Proof/Machine/Lifecycle.lean ====
section
/-! DEFINITION. The lifecycle and identity operations (40_lifecycle.md) and the reserved operation
codes (R76). -/

namespace Sys2Proof.Machine

/-- R91: `SD`, in every phase; reads no state. -/
def execCardType (s : State) : Out :=
  onIdlePort s (s.complete (.cardType .sd) [])

/-- R92: `SDIO`, in every phase; reads no state. -/
def execCardMode (s : State) : Out :=
  onIdlePort s (s.complete (.cardMode .sdio) [])

/-- R93: in an operational phase `bus_ready <- 1`; a repeated call changes nothing more. -/
def execSetupBus (s : State) : Out :=
  onIdlePort s <|
    if s.phase.operational then ({ s with busReady := true }).complete (.ok .unit) []
    else s.misuse []

/-- R94: the guard of `init`, `phase in {Uninitialized, Error}`. -/
def initLegal : Phase → Bool
  | .uninitialized => true
  | .error => true
  | .standby => false
  | .commandPending => false
  | .responseReady => false
  | .dataTransfer => false

/-- R94: from Uninitialized and Error, every field to its value after `init`, and Standby (log 15). -/
def execInit (s : State) : Out :=
  onIdlePort s <|
    if initLegal s.phase then s.initialize.complete (.ok .unit) [] else s.misuse []

/-- R76: a reserved OPSEL completes at once with `Err(Unimplemented)` in every phase. -/
def reservedRequest (s : State) : Out :=
  onIdlePort s (s.complete (.err .unimplemented) [])

/-- R76, OPSEL 0x12 to 0x13. -/
def execReserved12To13 (s : State) : Out := reservedRequest s

/-- R76, OPSEL 0x14 to 0x17. -/
def execReserved14To17 (s : State) : Out := reservedRequest s

/-- R76, OPSEL 0x18 to 0x1F. -/
def execReserved18To1F (s : State) : Out := reservedRequest s

/-- R76, OPSEL 0x20 to 0x3F. -/
def execReserved20To3F (s : State) : Out := reservedRequest s

/-- R76, OPSEL 0x40 to 0x7F. -/
def execReserved40To7F (s : State) : Out := reservedRequest s

/-- R76, OPSEL 0x80 to 0xFF. -/
def execReserved80ToFF (s : State) : Out := reservedRequest s

end Sys2Proof.Machine
end

