-- ==== Sys2Proof/Machine/Dispatch.lean ====
section
/-! DEFINITION. One arm per constructor of `Instr`: the meaning of every row of
spec/opcode_table.json. -/

namespace Sys2Proof.Machine

def exec (i : Instr) (s : State) : Host.Outcome State Fault Refusal :=
  match i with
  | .cardType => Sys2Proof.Machine.execCardType s
  | .cardMode => Sys2Proof.Machine.execCardMode s
  | .setupBus => Sys2Proof.Machine.execSetupBus s
  | .init => Sys2Proof.Machine.execInit s
  | .fifoReady status => Sys2Proof.Machine.execFifoReady status s
  | .waitForReset line timeout => Sys2Proof.Machine.execWaitForReset line timeout s
  | .waitWhileBusy timeoutUs => Sys2Proof.Machine.execWaitWhileBusy timeoutUs s
  | .readData buf => Sys2Proof.Machine.execReadData buf s
  | .writeData buf => Sys2Proof.Machine.execWriteData buf s
  | .sendTuning mode width => Sys2Proof.Machine.execSendTuning mode width s
  | .interrupt => Sys2Proof.Machine.execInterrupt s
  | .setInterrupt v => Sys2Proof.Machine.execSetInterrupt v s
  | .clearAllInterrupt => Sys2Proof.Machine.execClearAllInterrupt s
  | .responseInterrupt => Sys2Proof.Machine.execResponseInterrupt s
  | .setResponseInterrupt v => Sys2Proof.Machine.execSetResponseInterrupt v s
  | .clearAllResponseInterrupt => Sys2Proof.Machine.execClearAllResponseInterrupt s
  | .readCommand => Sys2Proof.Machine.execReadCommand s
  | .writeResponse index withCrc payload => Sys2Proof.Machine.execWriteResponse index withCrc payload s
  | .reserved12To13 _ => Sys2Proof.Machine.execReserved12To13 s
  | .reserved14To17 _ => Sys2Proof.Machine.execReserved14To17 s
  | .reserved18To1F _ => Sys2Proof.Machine.execReserved18To1F s
  | .reserved20To3F _ => Sys2Proof.Machine.execReserved20To3F s
  | .reserved40To7F _ => Sys2Proof.Machine.execReserved40To7F s
  | .reserved80ToFF _ => Sys2Proof.Machine.execReserved80ToFF s
  | .cmd48 index arg crc => Sys2Proof.Machine.execCmd48 index arg crc s
  | .rsp48 index payload crc => Sys2Proof.Machine.execRsp48 index payload crc s

end Sys2Proof.Machine
end

