-- ==== Sys2Proof/Machine/Fetch.lean ====
section
/-! DEFINITION. What one input does (R7), and which input the next step takes (log 1, log 3). -/

namespace Sys2Proof.Machine

/-- A request on the driver port: decode it and run it. -/
def issue (r : Request) (s : State) : Out := exec (decodeRequest r) s

/-- R150 for any 48-bit value: a frame of one of the two formats runs as its row of the table; a
frame that fits neither is latched just the same (log 10). -/
def sendFrame (f : Frame) (s : State) : Out :=
  match decodeFrame f with
  | .ok i => exec i s
  | .error _ => hostSendCommand f s

/-- One step of the host, the hardware or the clock. -/
def runEnv (e : EnvStep) (s : State) : Out :=
  match e with
  | .sendCommand f => sendFrame f s
  | .takeResponse => hostTakeResponse s
  | .pushByte b => hostPushByte b s
  | .popByte => hostPopByte s
  | .busFault => busFault s
  | .hwReset line => hwReset line s
  | .tuningDone => hwTuningDone s
  | .poll => poll s
  | .tick => clockTick s

/-- One input. -/
def runInput (i : Input) (s : State) : Out :=
  match i with
  | .request r => issue r s
  | .env e => runEnv e s

/-- Is the next listed input one that can be taken now? A request waits while an operation is in
flight (R8); an empty list names nothing. -/
def State.inputTaken (s : State) : Bool :=
  match s.inputs with
  | [] => false
  | .env _ :: _ => true
  | .request _ :: _ => s.port.isIdle

/-- The input the next step takes: the next listed one, else a free step of another agent (log 1). -/
def State.nextInput (s : State) : Input :=
  match s.inputs with
  | [] => .env (Config.freeStep s.draws)
  | i :: _ => if s.inputTaken then i else .env (Config.freeStep s.draws)

/-- The state once that input is taken off its list, or drawn. -/
def State.afterFetch (s : State) : State :=
  if s.inputTaken then { s with inputs := s.inputs.tail } else { s with draws := s.draws + 1 }

/-- One step of the block. -/
def stepOnce (s : State) : Out := runInput s.nextInput s.afterFetch

/-- Present a packet so that the very next step takes it: first of the inputs, and for a request an
idle port (log 12). -/
def State.present (s : State) : Packet → State
  | .request r => { s with port := .idle, inputs := .request r :: s.inputs }
  | .frame f => { s with inputs := .env (.sendCommand f) :: s.inputs }

/-- Present the packet of bytes on a channel; bytes that are no packet present nothing. -/
def State.presentBytes (s : State) (ch : Channel) (bs : List Byte) : State :=
  match packetOfBytes ch bs with
  | .ok p => s.present p
  | .error _ => s

end Sys2Proof.Machine
end

