-- ==== Sys2Proof/Machine/Step.lean ====
section
/-! DEFINITION. The step, and a table word placed where the next step takes it. -/

namespace Sys2Proof.Machine

/-- One step of one agent (R7). -/
def step (s : State) : Host.Outcome State Fault Refusal := stepOnce s

/-- `s` with a table word as the next input (log 12). -/
def State.withFetchWord (s : State) (nbits w : Nat) : State :=
  s.presentBytes (tableBytes nbits w).1 (tableBytes nbits w).2

end Sys2Proof.Machine
end

