-- ==== Sys2Proof/Safety.lean ====
section
/-! DEFINITION. The terms claims are stated in: the invariants of R35, the guard matrix of R102, the
tables of R100 and R171 as relations, and the CRC's polynomials (R66, R67). -/

namespace Sys2Proof.Machine

/-- `s` when its caller has received one more result and nothing else has changed. -/
def State.answers (s : State) (r : Result) (buf : List Byte) : State :=
  { s with results := s.results ++ [⟨r, buf⟩] }

/-! ## The invariants -/

/-- R35, item by item. -/
structure State.Inv35 (s : State) : Prop where
  /-- Item 1. -/
  fifoBounds : s.rxf.length ≤ s.params.fifoDepth ∧ s.txf.length ≤ s.params.fifoDepth
  /-- Item 2. -/
  uninitialized : s.phase = .uninitialized →
    s.busReady = false ∧ s.cmdPending = false ∧ s.cmdCrcFail = false ∧ s.respReady = false ∧
    s.rxf = [] ∧ s.txf = [] ∧ s.xferFault = false ∧ s.tuningActive = false ∧
    ∀ r, s.rstReq.get r = false
  /-- Item 3. -/
  busReady : s.phase = .commandPending ∨ s.phase = .responseReady ∨ s.phase = .dataTransfer →
    s.busReady = true
  /-- Item 4. -/
  pendingPhase : s.cmdPending = true → s.phase = .standby ∨ s.phase = .error
  /-- Item 5. -/
  crcFailPending : s.cmdCrcFail = true → s.cmdPending = true
  /-- Item 6. -/
  commandPending : s.phase = .commandPending → s.respReady = false ∧ s.cmdPending = false
  /-- Item 7. -/
  responseReady : s.phase = .responseReady → s.respReady = true
  /-- Item 8, first half. -/
  resetInFlight : ∀ r, s.rstReq.get r = true →
    ∃ timeoutUs elapsed, s.port = .waitForReset r timeoutUs elapsed
  /-- Item 8, second half. -/
  resetUnique : ∀ r r', s.rstReq.get r = true → s.rstReq.get r' = true → r = r'
  /-- Item 9, `ReadCommand`. -/
  portReadCommand : ∀ elapsed, s.port = .readCommand elapsed → s.phase = .standby
  /-- Item 9, `ReadData`. -/
  portReadData : ∀ buf i elapsed, s.port = .readData buf i elapsed →
    s.phase = .dataTransfer ∧ i < buf.length
  /-- Item 9, `WriteData`. -/
  portWriteData : ∀ buf i elapsed, s.port = .writeData buf i elapsed →
    s.phase = .dataTransfer ∧ i < buf.length
  /-- Item 10. -/
  xferFault : s.xferFault = true → s.phase ≠ .uninitialized

/-- What R35 needs beside it to be kept by every step: consequences of the rules that R35 does not
list (DEDUCED from R110, R114, R129, R150, R156). -/
structure State.InvMore (s : State) : Prop where
  /-- R4's constraints on the parameters. -/
  params : s.params.valid
  /-- R150 latches only with no response uncollected; R114 needs CommandPending. -/
  pendingNoResponse : s.cmdPending = true → s.respReady = false
  /-- R110's guard, and the driver cannot clear `bus_ready` while the port is taken. -/
  readCommandReady : ∀ elapsed, s.port = .readCommand elapsed → s.busReady = true
  /-- R129's guard; no reset line is asserted while `wait_while_busy` is in flight. -/
  waitWhileBusyPhase : ∀ timeoutUs elapsed, s.port = .waitWhileBusy timeoutUs elapsed →
    s.phase = .standby ∨ s.phase = .commandPending ∨ s.phase = .responseReady ∨
    s.phase = .dataTransfer
  /-- In Uninitialized only the `wait_for_reset` whose line All has just completed is in flight. -/
  uninitializedPort : s.phase = .uninitialized →
    s.port = .idle ∨ ∃ line timeoutUs elapsed, s.port = .waitForReset line timeoutUs elapsed

/-- The invariant every step keeps. -/
structure State.Inv (s : State) : Prop where
  listed : s.Inv35
  more : s.InvMore

/-! ## The guard matrix of R102 -/

/-- The driver's operations and reserved requests; the two frames come from the host. -/
def isDriverInstr : Instr → Bool
  | .cardType => true
  | .cardMode => true
  | .setupBus => true
  | .init => true
  | .fifoReady _ => true
  | .waitForReset _ _ => true
  | .waitWhileBusy _ => true
  | .readData _ => true
  | .writeData _ => true
  | .sendTuning _ _ => true
  | .interrupt => true
  | .setInterrupt _ => true
  | .clearAllInterrupt => true
  | .responseInterrupt => true
  | .setResponseInterrupt _ => true
  | .clearAllResponseInterrupt => true
  | .readCommand => true
  | .writeResponse _ _ _ => true
  | .reserved12To13 _ => true
  | .reserved14To17 _ => true
  | .reserved18To1F _ => true
  | .reserved20To3F _ => true
  | .reserved40To7F _ => true
  | .reserved80ToFF _ => true
  | .cmd48 _ _ _ => false
  | .rsp48 _ _ _ => false

/-- R76: the reserved operation codes. -/
def isReserved : Instr → Bool
  | .cardType => false
  | .cardMode => false
  | .setupBus => false
  | .init => false
  | .fifoReady _ => false
  | .waitForReset _ _ => false
  | .waitWhileBusy _ => false
  | .readData _ => false
  | .writeData _ => false
  | .sendTuning _ _ => false
  | .interrupt => false
  | .setInterrupt _ => false
  | .clearAllInterrupt => false
  | .responseInterrupt => false
  | .setResponseInterrupt _ => false
  | .clearAllResponseInterrupt => false
  | .readCommand => false
  | .writeResponse _ _ _ => false
  | .reserved12To13 _ => true
  | .reserved14To17 _ => true
  | .reserved18To1F _ => true
  | .reserved20To3F _ => true
  | .reserved40To7F _ => true
  | .reserved80ToFF _ => true
  | .cmd48 _ _ _ => false
  | .rsp48 _ _ _ => false

/-- The six columns of R102's matrix, in its order. -/
def inColumns (uninit standby command response transfer error : Bool) : Phase → Bool
  | .uninitialized => uninit
  | .standby => standby
  | .commandPending => command
  | .responseReady => response
  | .dataTransfer => transfer
  | .error => error

/-- R102: the matrix, `true` for `ok` and `false` for `G`; a reserved OPSEL has no guard. -/
def matrixAllows : Instr → Phase → Bool
  | .cardType => inColumns true true true true true true
  | .cardMode => inColumns true true true true true true
  | .setupBus => inColumns false true true true true false
  | .init => inColumns true false false false false true
  | .fifoReady _ => inColumns false true true true true false
  | .waitForReset _ _ => inColumns false true true true true true
  | .waitWhileBusy _ => inColumns false true true true true false
  | .readData _ => inColumns false false false false true false
  | .writeData _ => inColumns false false false false true false
  | .sendTuning _ _ => inColumns false true true true true false
  | .interrupt => inColumns false true true true true true
  | .setInterrupt _ => inColumns false true true true true true
  | .clearAllInterrupt => inColumns false true true true true true
  | .responseInterrupt => inColumns false true true true true true
  | .setResponseInterrupt _ => inColumns false true true true true true
  | .clearAllResponseInterrupt => inColumns false true true true true true
  | .readCommand => inColumns false true false false false false
  | .writeResponse _ _ _ => inColumns false false true false false false
  | .reserved12To13 _ => inColumns true true true true true true
  | .reserved14To17 _ => inColumns true true true true true true
  | .reserved18To1F _ => inColumns true true true true true true
  | .reserved20To3F _ => inColumns true true true true true true
  | .reserved40To7F _ => inColumns true true true true true true
  | .reserved80ToFF _ => inColumns true true true true true true
  | .cmd48 _ _ _ => inColumns true true true true true true
  | .rsp48 _ _ _ => inColumns true true true true true true

/-- R102, last column. -/
def furtherGuard (s : State) : Instr → Bool
  | .cardType => true
  | .cardMode => true
  | .setupBus => true
  | .init => true
  | .fifoReady status => decide (status.toNat ≤ 1)
  | .waitForReset line _ => decide (line.toNat ≤ 2)
  | .waitWhileBusy _ => true
  | .readData _ => s.busReady
  | .writeData _ => s.busReady
  | .sendTuning mode width =>
      s.busReady && !s.tuningActive && decide (mode.toNat ≤ 2) && decide (width.toNat ≤ 1)
  | .interrupt => true
  | .setInterrupt _ => true
  | .clearAllInterrupt => true
  | .responseInterrupt => true
  | .setResponseInterrupt _ => true
  | .clearAllResponseInterrupt => true
  | .readCommand => s.busReady
  | .writeResponse _ _ _ => s.busReady
  | .reserved12To13 _ => true
  | .reserved14To17 _ => true
  | .reserved18To1F _ => true
  | .reserved20To3F _ => true
  | .reserved40To7F _ => true
  | .reserved80ToFF _ => true
  | .cmd48 _ _ _ => true
  | .rsp48 _ _ _ => true

/-- R102: the guard of an operation holds. -/
def legal (i : Instr) (s : State) : Bool := matrixAllows i s.phase && furtherGuard s i

/-- The caller's buffer of an operation. -/
def callerBuf : Instr → List Byte
  | .cardType => []
  | .cardMode => []
  | .setupBus => []
  | .init => []
  | .fifoReady _ => []
  | .waitForReset _ _ => []
  | .waitWhileBusy _ => []
  | .readData buf => buf
  | .writeData buf => buf
  | .sendTuning _ _ => []
  | .interrupt => []
  | .setInterrupt _ => []
  | .clearAllInterrupt => []
  | .responseInterrupt => []
  | .setResponseInterrupt _ => []
  | .clearAllResponseInterrupt => []
  | .readCommand => []
  | .writeResponse _ _ _ => []
  | .reserved12To13 _ => []
  | .reserved14To17 _ => []
  | .reserved18To1F _ => []
  | .reserved20To3F _ => []
  | .reserved40To7F _ => []
  | .reserved80ToFF _ => []
  | .cmd48 _ _ _ => []
  | .rsp48 _ _ _ => []

/-! ## R100: every write of the phase -/

/-- A pump is in flight. -/
def Port.isPump : Port → Bool
  | .readData _ _ _ => true
  | .writeData _ _ _ => true
  | _ => false

/-- The pump in flight moves its last byte at this POLL. -/
def State.lastByte (s : State) : Prop :=
  (∃ buf i elapsed, s.port = .readData buf i elapsed ∧ i + 1 = buf.length ∧ s.rxf ≠ []) ∨
  (∃ buf i elapsed, s.port = .writeData buf i elapsed ∧ i + 1 = buf.length ∧
    s.txf.length < s.params.fifoDepth)

/-- The pump in flight is not ready and past the deadline at this POLL. -/
def State.pumpExpired (s : State) : Prop :=
  (∃ buf i elapsed t, s.port = .readData buf i elapsed ∧ s.rxf = [] ∧
    s.params.tCfgUs = some t ∧ t ≤ elapsed) ∨
  (∃ buf i elapsed t, s.port = .writeData buf i elapsed ∧ s.params.fifoDepth ≤ s.txf.length ∧
    s.params.tCfgUs = some t ∧ t ≤ elapsed)

/-- The table of R100: `PhaseRow s i p` says that input `i` taken in state `s` writes `phase <- p` by
row T1 to T16 (T17 is power-on and no step of a run, R190). -/
inductive PhaseRow (s : State) : Input → Phase → Prop
  | t1 (r : Request) : decodeRequest r = .init →
      s.phase = .uninitialized ∨ s.phase = .error → PhaseRow s (.request r) .standby
  | t2 (elapsed : Nat) : s.port = .readCommand elapsed → s.phase = .standby →
      s.cmdPending = true → s.cmdCrcFail = false → frameLegal s.params s.cmdLatch = true →
      PhaseRow s (.env .poll) .commandPending
  | t3 (elapsed : Nat) : s.port = .readCommand elapsed → s.phase = .standby →
      s.cmdPending = true → s.cmdCrcFail = true → PhaseRow s (.env .poll) .error
  | t4 (elapsed : Nat) : s.port = .readCommand elapsed → s.phase = .standby →
      s.cmdPending = true → s.cmdCrcFail = false → frameLegal s.params s.cmdLatch = false →
      PhaseRow s (.env .poll) .error
  | t5 (elapsed t : Nat) : s.port = .readCommand elapsed → s.phase = .standby →
      s.cmdPending = false → s.params.tCfgUs = some t → t ≤ elapsed →
      PhaseRow s (.env .poll) .error
  | t6 (r : Request) (index : Index) (withCrc : Bool) (payload : Word) :
      decodeRequest r = .writeResponse index withCrc payload → s.phase = .commandPending →
      s.curIndex ∉ s.params.dataCmds → PhaseRow s (.request r) .responseReady
  | t7 (r : Request) (index : Index) (withCrc : Bool) (payload : Word) :
      decodeRequest r = .writeResponse index withCrc payload → s.phase = .commandPending →
      s.curIndex ∈ s.params.dataCmds → PhaseRow s (.request r) .dataTransfer
  | t8 : s.phase = .responseReady → PhaseRow s (.env .takeResponse) .standby
  | t9 : s.phase = .dataTransfer → s.xferFault = false → s.lastByte →
      PhaseRow s (.env .poll) .standby
  | t9Empty (r : Request) : decodeRequest r = .readData [] ∨ decodeRequest r = .writeData [] →
      s.phase = .dataTransfer → PhaseRow s (.request r) .standby
  | t10 : s.phase = .dataTransfer → s.port.isPump = true → s.xferFault = true →
      PhaseRow s (.env .poll) .error
  | t11 : s.phase = .dataTransfer → s.xferFault = false → s.pumpExpired →
      PhaseRow s (.env .poll) .error
  | t12 (timeoutUs : Word) (elapsed : Nat) : s.port = .waitWhileBusy timeoutUs elapsed →
      s.phase ≠ .uninitialized → s.phase ≠ .error → s.busy = true → timeoutUs.toNat ≤ elapsed →
      PhaseRow s (.env .poll) .error
  | t13 (line : ResetLine) (timeoutUs : Word) (elapsed : Nat) :
      s.port = .waitForReset line timeoutUs elapsed → s.phase ≠ .uninitialized →
      s.rstReq.get line = true → timeoutUs.toNat ≤ elapsed → PhaseRow s (.env .poll) .error
  | t14 : s.rstReq.all = true → s.phase ≠ .uninitialized →
      PhaseRow s (.env (.hwReset .all)) .uninitialized
  | t15 : s.rstReq.cmd = true →
      s.phase = .commandPending ∨ s.phase = .responseReady ∨ s.phase = .error →
      PhaseRow s (.env (.hwReset .cmd)) .standby
  | t16 : s.rstReq.data = true → s.phase = .dataTransfer ∨ s.phase = .error →
      PhaseRow s (.env (.hwReset .data)) .standby

/-! ## R171: every cause of every error result -/

/-- The table of R171: `ErrorRow s i e entersError` says that input `i` taken in state `s` completes with
`Err(e)`, and whether the same step writes `phase <- Error`. E1 and E2 are one row, the guard of
R102 with its operand ranges (R83). -/
inductive ErrorRow (s : State) : Input → Err → Bool → Prop
  | e1e2 (r : Request) : isReserved (decodeRequest r) = false → legal (decodeRequest r) s = false →
      ErrorRow s (.request r) .general false
  | e3 (elapsed t : Nat) : s.port = .readCommand elapsed → s.cmdPending = false →
      s.params.tCfgUs = some t → t ≤ elapsed → ErrorRow s (.env .poll) .general true
  | e4 : s.port.isPump = true → s.xferFault = true → ErrorRow s (.env .poll) .general true
  | e5e6 : s.xferFault = false → s.pumpExpired → ErrorRow s (.env .poll) .general true
  | e7 (timeoutUs : Word) (elapsed : Nat) : s.port = .waitWhileBusy timeoutUs elapsed →
      s.busy = true → timeoutUs.toNat ≤ elapsed → ErrorRow s (.env .poll) .general true
  | e8 (line : ResetLine) (timeoutUs : Word) (elapsed : Nat) :
      s.port = .waitForReset line timeoutUs elapsed → s.rstReq.get line = true →
      timeoutUs.toNat ≤ elapsed → ErrorRow s (.env .poll) .general true
  | e9 (elapsed : Nat) : s.port = .readCommand elapsed → s.cmdPending = true →
      s.cmdCrcFail = true → ErrorRow s (.env .poll) .crc true
  | e10 (elapsed : Nat) : s.port = .readCommand elapsed → s.cmdPending = true →
      s.cmdCrcFail = false → frameLegal s.params s.cmdLatch = false →
      ErrorRow s (.env .poll) .illegalCommand true
  | e11 (r : Request) : isReserved (decodeRequest r) = true →
      ErrorRow s (.request r) .unimplemented false

/-! ## Timeouts -/

/-- R182: the timeout of the operation in flight; `none` is none in flight, or `INF`. -/
def State.timeoutOf (s : State) : Option Nat :=
  match s.port with
  | .idle => none
  | .readCommand _ => s.params.tCfgUs
  | .readData _ _ _ => s.params.tCfgUs
  | .writeData _ _ _ => s.params.tCfgUs
  | .waitWhileBusy timeoutUs _ => some timeoutUs.toNat
  | .waitForReset _ timeoutUs _ => some timeoutUs.toNat

/-- How many POLLs past the deadline an operation can need: a pump may still move each byte that is
left, any other operation is over at the first. -/
def State.pollsLeft (s : State) : Nat :=
  match s.port with
  | .idle => 0
  | .readCommand _ => 1
  | .readData buf i _ => buf.length - i
  | .writeData buf i _ => buf.length - i
  | .waitWhileBusy _ _ => 1
  | .waitForReset _ _ _ => 1

/-! ## The polynomials of R66, R67 -/

/-- The generator `G(x) = x^7 + x^3 + 1` over GF(2). -/
noncomputable def crcGenerator : Polynomial (ZMod 2) :=
  Polynomial.X ^ 7 + Polynomial.X ^ 3 + 1

/-- A value of `w` bits read as a polynomial over GF(2): bit `k` is the coefficient of `x^k`. -/
noncomputable def bitPoly {w : Nat} (v : BitVec w) : Polynomial (ZMod 2) :=
  ∑ k ∈ Finset.range w, if v.getLsbD k then Polynomial.X ^ k else 0

end Sys2Proof.Machine
end

