-- ==== Sys2Proof/Certificates/Slice0/Obligations.lean ====
section
/-! DEFINITION. The statements for the provers. A result of an operation is stated as the state it
answers, written out: `s.answers r buf` is `s` with one more result for the caller and nothing
else changed. Every other field named in an equation is the one the rule writes; every field not
named is unchanged. -/

open Sys2Proof Sys2Proof.Machine

/-! ## Encoding (30_encoding.md) -/

/-- Decoding the encoding of a well-formed instruction gives it back, with every operand. -/
def Obligations.DecodeEncodeAgree : Prop :=
  ∀ i : Instr, i.wellFormed = true → decode (encode i) = .ok i

/-- The same through the bytes on the driver port or the bus (R40; the request's byte layout is the
model's choice, log 11). -/
def Obligations.DecodeEncodeBytesAgree : Prop :=
  ∀ i : Instr, i.wellFormed = true →
    decodeBytes (encode i).channel (encode i).bytes = .ok i

/-- What the decoder reads is well-formed and loses nothing: a frame is rebuilt bit for bit, a
request keeps its OPSEL (R75) and every operand field that R74 gives its operation. -/
def Obligations.EncodeDecodeAgree : Prop :=
  (∀ f i, decodeFrame f = .ok i → i.wellFormed = true ∧ encode i = .frame f) ∧
  (∀ r : Request, (decodeRequest r).wellFormed = true ∧
    ∃ r', encode (decodeRequest r) = .request r' ∧ r'.opsel = r.opsel ∧
      decodeRequest r' = decodeRequest r)

/-- R63, R71: the decoder takes exactly the frames with start bit 0 and end bit 1, and tells the two
formats by bit 46 (R60). -/
def Obligations.FrameRejectedByName : Prop :=
  ∀ f : Frame,
    (f.getLsbD 47 = true → decodeFrame f = .error .frameStartBit) ∧
    (f.getLsbD 47 = false → f.getLsbD 0 = false → decodeFrame f = .error .frameEndBit) ∧
    (f.getLsbD 47 = false → f.getLsbD 0 = true → f.getLsbD 46 = true →
      decodeFrame f = .ok (.cmd48 (f.extractLsb' 40 6) (f.extractLsb' 8 32) (f.extractLsb' 1 7))) ∧
    (f.getLsbD 47 = false → f.getLsbD 0 = true → f.getLsbD 46 = false →
      decodeFrame f = .ok (.rsp48 (f.extractLsb' 40 6) (f.extractLsb' 8 32) (f.extractLsb' 1 7)))

/-- Words written out from the spec: OPSEL codes of R75 and frames of 95_test_vectors.md. -/
def Obligations.WrittenOutWordsDecode : Prop :=
  decodeTableWord 8 0x00 = some .cardType ∧
  decodeTableWord 8 0x03 = some .init ∧
  decodeTableWord 72 0x000003E80000000205 = some (.waitForReset 2 1000) ∧
  decodeTableWord 8 0x0C = some .clearAllInterrupt ∧
  decodeTableWord 8 0x10 = some .readCommand ∧
  decodeTableWord 8 0x17 = some (.reserved14To17 0x17) ∧
  decodeTableWord 48 0x45000000005B = some (.cmd48 5 0x00000000 0x2D) ∧
  decodeTableWord 48 0x35000010005B = some (.rsp48 53 0x00001000 0x2D) ∧
  decodeTableWord 48 0x45000000005A = none

/-! ## The CRC (R65 to R67) -/

/-- R67 (b): `crc7` is linear over GF(2). -/
def Obligations.CrcLinear : Prop :=
  crc7 0 = 0 ∧ ∀ a b : BitVec 40, crc7 (a ^^^ b) = crc7 a ^^^ crc7 b

/-- R66: `crc7(h)` is the remainder of `h(x) * x^7` divided by `G(x)`: the two differ by a multiple of
`G(x)`, and `crc7(h)` has degree below 7 by its width. -/
def Obligations.CrcIsRemainder : Prop :=
  ∀ h : BitVec 40,
    crcGenerator ∣ bitPoly h * Polynomial.X ^ 7 - bitPoly (crc7 h)

/-- R67 (d): a frame that passes the check fails it after any one-bit change of `f[47:1]` and any
two-bit change; R67 (e): the end bit is not covered. -/
def Obligations.CrcDetectsOneAndTwoBitErrors : Prop :=
  ∀ f : Frame, crcBad f = false →
    (∀ j, 1 ≤ j → j ≤ 47 → crcBad (f ^^^ BitVec.twoPow 48 j) = true) ∧
    (∀ j k, j < k → k ≤ 47 →
      crcBad (f ^^^ BitVec.twoPow 48 j ^^^ BitVec.twoPow 48 k) = true) ∧
    crcBad (f ^^^ BitVec.twoPow 48 0) = false

/-! ## The operations: what each answers on an idle port -/

/-- R91, R92: the identity queries answer their constants in every phase and change nothing. -/
def Obligations.IdentityQueriesAnswer : Prop :=
  (∀ r : Request,
    (r.opsel = 0x00 → decodeRequest r = .cardType) ∧
    (r.opsel = 0x01 → decodeRequest r = .cardMode)) ∧
  (∀ s : State, s.port = .idle →
     exec .cardType s = .next (s.answers (.cardType .sd) []) ∧
     exec .cardMode s = .next (s.answers (.cardMode .sdio) []))

/-- R93. -/
def Obligations.SetupBusAnswers : Prop :=
  (∀ r : Request, r.opsel = 0x02 → decodeRequest r = .setupBus) ∧
  (∀ s : State, s.port = .idle →
     (s.phase ∈ [.standby, .commandPending, .responseReady, .dataTransfer] →
       exec .setupBus s = .next (({ s with busReady := true }).answers (.ok .unit) [])) ∧
     (s.phase ∉ [.standby, .commandPending, .responseReady, .dataTransfer] →
       exec .setupBus s = .next (s.answers (.err .general) [])))

/-- R94: every field `init` writes, from Uninitialized and from Error; elsewhere `General`. -/
def Obligations.InitAnswers : Prop :=
  (∀ r : Request, r.opsel = 0x03 → decodeRequest r = .init) ∧
  (∀ s : State, s.port = .idle →
     (s.phase ∈ [.uninitialized, .error] →
       exec .init s = .next (({ s with
         cmdLatch := 0, cmdPending := false, cmdCrcFail := false, curIndex := 0,
         respReg := 0, respReady := false, rxf := [], txf := [], xferFault := false,
         rstReq := ⟨false, false, false⟩, tuningActive := false, intSt := 0, rintSt := 0,
         busReady := false, phase := .standby }).answers (.ok .unit) [])) ∧
     (s.phase ∉ [.uninitialized, .error] →
       exec .init s = .next (s.answers (.err .general) [])))

/-- R120, R83. -/
def Obligations.FifoReadyAnswers : Prop :=
  (∀ r : Request, r.opsel = 0x04 → decodeRequest r = .fifoReady r.a) ∧
  (∀ s : State, s.port = .idle →
     (s.phase ∈ [.standby, .commandPending, .responseReady, .dataTransfer] →
       exec (.fifoReady 0) s = .next (s.answers (.ok (.bool (decide (0 < s.rxf.length)))) []) ∧
       exec (.fifoReady 1) s =
         .next (s.answers (.ok (.bool (decide (s.txf.length < s.params.fifoDepth)))) [])) ∧
     (∀ status : Word,
       s.phase ∉ [.standby, .commandPending, .responseReady, .dataTransfer] ∨ 1 < status.toNat →
       exec (.fifoReady status) s = .next (s.answers (.err .general) [])))

/-- R133, R83: the issue step asserts the line named by `A` and takes the port. -/
def Obligations.WaitForResetIssues : Prop :=
  (∀ r : Request, r.opsel = 0x05 → decodeRequest r = .waitForReset r.a r.b) ∧
  (∀ (s : State) (timeout : Word), s.port = .idle →
     (s.phase ≠ .uninitialized →
       exec (.waitForReset 0 timeout) s = .next { s with
         rstReq := { s.rstReq with all := true }, port := .waitForReset .all timeout 0 } ∧
       exec (.waitForReset 1 timeout) s = .next { s with
         rstReq := { s.rstReq with cmd := true }, port := .waitForReset .cmd timeout 0 } ∧
       exec (.waitForReset 2 timeout) s = .next { s with
         rstReq := { s.rstReq with data := true }, port := .waitForReset .data timeout 0 }) ∧
     (∀ line : Word, s.phase = .uninitialized ∨ 2 < line.toNat →
       exec (.waitForReset line timeout) s = .next (s.answers (.err .general) [])))

/-- R129. -/
def Obligations.WaitWhileBusyIssues : Prop :=
  (∀ r : Request, r.opsel = 0x06 → decodeRequest r = .waitWhileBusy r.a) ∧
  (∀ (s : State) (timeoutUs : Word), s.port = .idle →
     (s.phase ∈ [.standby, .commandPending, .responseReady, .dataTransfer] →
       exec (.waitWhileBusy timeoutUs) s = .next { s with port := .waitWhileBusy timeoutUs 0 }) ∧
     (s.phase ∉ [.standby, .commandPending, .responseReady, .dataTransfer] →
       exec (.waitWhileBusy timeoutUs) s = .next (s.answers (.err .general) [])))

/-- R122: a length of 0 is satisfied at once, without a look at `xfer_fault` or `rxf`. -/
def Obligations.ReadDataIssues : Prop :=
  (∀ r : Request, r.opsel = 0x07 → decodeRequest r = .readData r.buf) ∧
  (∀ (s : State) (buf : List Byte), s.port = .idle →
     (s.phase = .dataTransfer → s.busReady = true →
       (buf = [] → exec (.readData buf) s =
         .next (({ s with phase := .standby }).answers (.ok .unit) [])) ∧
       (buf ≠ [] → exec (.readData buf) s = .next { s with port := .readData buf 0 0 })) ∧
     (s.phase ≠ .dataTransfer ∨ s.busReady = false →
       exec (.readData buf) s = .next (s.answers (.err .general) buf)))

/-- R125. -/
def Obligations.WriteDataIssues : Prop :=
  (∀ r : Request, r.opsel = 0x08 → decodeRequest r = .writeData r.buf) ∧
  (∀ (s : State) (buf : List Byte), s.port = .idle →
     (s.phase = .dataTransfer → s.busReady = true →
       (buf = [] → exec (.writeData buf) s =
         .next (({ s with phase := .standby }).answers (.ok .unit) [])) ∧
       (buf ≠ [] → exec (.writeData buf) s = .next { s with port := .writeData buf 0 0 })) ∧
     (s.phase ≠ .dataTransfer ∨ s.busReady = false →
       exec (.writeData buf) s = .next (s.answers (.err .general) buf)))

/-- R146: the guard of `send_tuning`, and what it arms; the codes are those of R80, R81. -/
def Obligations.SendTuningAnswers : Prop :=
  (∀ r : Request, r.opsel = 0x09 → decodeRequest r = .sendTuning r.a r.b) ∧
  (∀ (s : State) (mode width : Word), s.port = .idle →
     (s.phase ∈ [.standby, .commandPending, .responseReady, .dataTransfer] →
       s.busReady = true → s.tuningActive = false →
       ∀ (m : TuningMode) (w : TuningWidth),
       (mode, m) ∈ [((0 : Word), TuningMode.sdr50), (1, .sdr104), (2, .hs200)] →
       (width, w) ∈ [((0 : Word), TuningWidth.bits4), (1, .bits8)] →
       exec (.sendTuning mode width) s =
         .next (({ s with tuningActive := true, tuningMode := m, tuningWidth := w }).answers
           (.ok .unit) [])) ∧
     (s.phase ∉ [.standby, .commandPending, .responseReady, .dataTransfer] ∨
       s.busReady = false ∨ s.tuningActive = true ∨ 2 < mode.toNat ∨ 1 < width.toNat →
       exec (.sendTuning mode width) s = .next (s.answers (.err .general) [])))

/-- R140, R141, R142: read, OR-set and clear of `int_st`, in every phase but Uninitialized. -/
def Obligations.TransportInterruptAnswers : Prop :=
  (∀ r : Request,
    (r.opsel = 0x0A → decodeRequest r = .interrupt) ∧
    (r.opsel = 0x0B → decodeRequest r = .setInterrupt r.a) ∧
    (r.opsel = 0x0C → decodeRequest r = .clearAllInterrupt)) ∧
  (∀ (s : State) (v : Word), s.port = .idle →
     (s.phase ≠ .uninitialized →
       exec .interrupt s = .next (s.answers (.ok (.word s.intSt)) []) ∧
       exec (.setInterrupt v) s =
         .next (({ s with intSt := s.intSt ||| v }).answers (.ok .unit) []) ∧
       exec .clearAllInterrupt s = .next (({ s with intSt := 0 }).answers (.ok .unit) [])) ∧
     (s.phase = .uninitialized →
       ∀ i ∈ [.interrupt, .setInterrupt v, .clearAllInterrupt],
         exec i s = .next (s.answers (.err .general) [])))

/-- R143, R144, R145: the same for `rint_st`. -/
def Obligations.ResponseInterruptAnswers : Prop :=
  (∀ r : Request,
    (r.opsel = 0x0D → decodeRequest r = .responseInterrupt) ∧
    (r.opsel = 0x0E → decodeRequest r = .setResponseInterrupt r.a) ∧
    (r.opsel = 0x0F → decodeRequest r = .clearAllResponseInterrupt)) ∧
  (∀ (s : State) (v : Word), s.port = .idle →
     (s.phase ≠ .uninitialized →
       exec .responseInterrupt s = .next (s.answers (.ok (.word s.rintSt)) []) ∧
       exec (.setResponseInterrupt v) s =
         .next (({ s with rintSt := s.rintSt ||| v }).answers (.ok .unit) []) ∧
       exec .clearAllResponseInterrupt s = .next (({ s with rintSt := 0 }).answers (.ok .unit) [])) ∧
     (s.phase = .uninitialized →
       ∀ i ∈ [.responseInterrupt, .setResponseInterrupt v, .clearAllResponseInterrupt],
         exec i s = .next (s.answers (.err .general) [])))

/-- R110. -/
def Obligations.ReadCommandIssues : Prop :=
  (∀ r : Request, r.opsel = 0x10 → decodeRequest r = .readCommand) ∧
  (∀ s : State, s.port = .idle →
     (s.phase = .standby → s.busReady = true →
       exec .readCommand s = .next { s with port := .readCommand 0 }) ∧
     (s.phase ≠ .standby ∨ s.busReady = false →
       exec .readCommand s = .next (s.answers (.err .general) [])))

/-- R114: the response frame, `resp_ready`, and the phase by `DATA_CMD`. -/
def Obligations.WriteResponseAnswers : Prop :=
  (∀ r : Request,
    (r.opsel = 0x11 → decodeRequest r =
      .writeResponse (r.a.extractLsb' 0 6) (r.a.getLsbD 8) r.b)) ∧
  (∀ (s : State) (index : Index) (withCrc : Bool) (payload : Word), s.port = .idle →
     (s.phase = .commandPending → s.busReady = true →
       exec (.writeResponse index withCrc payload) s = .next (({ s with
         respReg := 0#2 ++ index ++ payload ++
           (if withCrc then crc7 (0#2 ++ index ++ payload : BitVec 40) else 0b1111111#7) ++ 1#1,
         respReady := true,
         phase := if s.curIndex ∈ s.params.dataCmds then .dataTransfer else .responseReady
         }).answers (.ok .unit) [])) ∧
     (s.phase ≠ .commandPending ∨ s.busReady = false →
       exec (.writeResponse index withCrc payload) s = .next (s.answers (.err .general) [])))

/-- R76: a reserved OPSEL answers `Err(Unimplemented)` in every phase and changes nothing. -/
def Obligations.ReservedAnswersUnimplemented : Prop :=
  ∀ (s : State) (op : Opsel), s.port = .idle →
    (∀ i ∈ [.reserved12To13 op, .reserved14To17 op, .reserved18To1F op,
            .reserved20To3F op, .reserved40To7F op, .reserved80ToFF op],
      exec i s = .next (s.answers (.err .unimplemented) [])) ∧
    (∀ r : Request, 0x12 ≤ r.opsel.toNat → isReserved (decodeRequest r) = true)

/-- R150 for the two frame formats: when the latch is armed, the frame, the pending flag, the CRC
flag and the event bits, the phase not written; when it is not armed, nothing. (That a word of the
format RSP48 reaches the block as a frame the host sends is the model's reading, log 9.) -/
def Obligations.FramesAreLatched : Prop :=
  ∀ (s : State) (index : Index) (word : Word) (crc : Crc7),
    (s.phase = .standby → s.cmdPending = false → s.respReady = false →
      (let f : Frame := 0b01#2 ++ index ++ word ++ crc ++ 1#1
       exec (.cmd48 index word crc) s = .next { s with
         cmdLatch := f, cmdPending := true, cmdCrcFail := decide (crc7 (f.extractLsb' 8 40) ≠ crc),
         rintSt := if crc7 (f.extractLsb' 8 40) ≠ crc then s.rintSt ||| 3 else s.rintSt ||| 1 }) ∧
      (let f : Frame := 0b00#2 ++ index ++ word ++ crc ++ 1#1
       exec (.rsp48 index word crc) s = .next { s with
         cmdLatch := f, cmdPending := true, cmdCrcFail := decide (crc7 (f.extractLsb' 8 40) ≠ crc),
         rintSt := if crc7 (f.extractLsb' 8 40) ≠ crc then s.rintSt ||| 3 else s.rintSt ||| 1 })) ∧
    (s.phase ≠ .standby ∨ s.cmdPending = true ∨ s.respReady = true →
      exec (.cmd48 index word crc) s = .next s ∧ exec (.rsp48 index word crc) s = .next s)

/-- R150: "A frame the host presents when the step is not enabled is not latched and changes no
state", for every 48-bit value; when it is enabled, any 48-bit value, of either format or neither, is
latched with its CRC verdict and the event bits of `rint_st`, and no other field changes. -/
def Obligations.AnyFrameIsLatchedOrNothing : Prop :=
  ∀ (s : State) (f : Frame),
    (s.phase ≠ .standby ∨ s.cmdPending = true ∨ s.respReady = true →
      runEnv (.sendCommand f) s = .next s) ∧
    (s.phase = .standby → s.cmdPending = false → s.respReady = false →
      runEnv (.sendCommand f) s = .next { s with
        cmdLatch := f, cmdPending := true,
        cmdCrcFail := decide (crc7 (f.extractLsb' 8 40) ≠ f.extractLsb' 1 7),
        rintSt := if crc7 (f.extractLsb' 8 40) ≠ f.extractLsb' 1 7 then s.rintSt ||| 3
          else s.rintSt ||| 1 })

/-! ## The POLL steps -/

/-- R112: the outcomes of the POLL of `read_command`, in the order of its checks. -/
def Obligations.PollReadCommandOutcomes : Prop :=
  ∀ (s : State) (elapsed : Nat), s.port = .readCommand elapsed →
    let consumed := { s with cmdPending := false, cmdCrcFail := false, port := .idle }
    let f := s.cmdLatch
    let goodFrame := f.getLsbD 47 = false ∧ f.getLsbD 46 = true ∧ f.getLsbD 0 = true ∧
      s.params.legalCmd (f.extractLsb' 40 6) (f.extractLsb' 8 32) = true
    (s.cmdPending = true → s.cmdCrcFail = true →
      runEnv .poll s = .next (({ consumed with phase := .error }).answers (.err .crc) [])) ∧
    (s.cmdPending = true → s.cmdCrcFail = false → ¬ goodFrame →
      runEnv .poll s =
        .next (({ consumed with phase := .error }).answers (.err .illegalCommand) [])) ∧
    (s.cmdPending = true → s.cmdCrcFail = false → goodFrame →
      runEnv .poll s = .next (({ consumed with
        curIndex := f.extractLsb' 40 6, phase := .commandPending }).answers
          (.ok (.command ⟨f.extractLsb' 40 6, f.extractLsb' 8 32, f.extractLsb' 1 7⟩)) [])) ∧
    (∀ t, s.cmdPending = false → s.params.tCfgUs = some t → t ≤ elapsed →
      runEnv .poll s =
        .next (({ s with port := .idle, phase := .error }).answers (.err .general) [])) ∧
    (s.cmdPending = false → (∀ t, s.params.tCfgUs = some t → elapsed < t) →
      runEnv .poll s = .next s)

/-- R123: the outcomes of the POLL of `read_data`. -/
def Obligations.PollReadDataOutcomes : Prop :=
  ∀ (s : State) (buf : List Byte) (i elapsed : Nat), s.port = .readData buf i elapsed →
    i < buf.length →
    (s.xferFault = true →
      runEnv .poll s =
        .next (({ s with port := .idle, phase := .error }).answers (.err .general) buf)) ∧
    (∀ b rest, s.xferFault = false → s.rxf = b :: rest → i + 1 = buf.length →
      runEnv .poll s = .next (({ s with rxf := rest, port := .idle, phase := .standby }).answers
        (.ok .unit) (buf.set i b))) ∧
    (∀ b rest, s.xferFault = false → s.rxf = b :: rest → i + 1 < buf.length →
      runEnv .poll s =
        .next { s with rxf := rest, port := .readData (buf.set i b) (i + 1) elapsed }) ∧
    (∀ t, s.xferFault = false → s.rxf = [] → s.params.tCfgUs = some t → t ≤ elapsed →
      runEnv .poll s =
        .next (({ s with port := .idle, phase := .error }).answers (.err .general) buf)) ∧
    (s.xferFault = false → s.rxf = [] → (∀ t, s.params.tCfgUs = some t → elapsed < t) →
      runEnv .poll s = .next s)

/-- R126: the outcomes of the POLL of `write_data`. -/
def Obligations.PollWriteDataOutcomes : Prop :=
  ∀ (s : State) (buf : List Byte) (i elapsed : Nat) (b : Byte),
    s.port = .writeData buf i elapsed → buf[i]? = some b →
    (s.xferFault = true →
      runEnv .poll s =
        .next (({ s with port := .idle, phase := .error }).answers (.err .general) buf)) ∧
    (s.xferFault = false → s.txf.length < s.params.fifoDepth → i + 1 = buf.length →
      runEnv .poll s =
        .next (({ s with txf := s.txf ++ [b], port := .idle, phase := .standby }).answers
          (.ok .unit) buf)) ∧
    (s.xferFault = false → s.txf.length < s.params.fifoDepth → i + 1 < buf.length →
      runEnv .poll s =
        .next { s with txf := s.txf ++ [b], port := .writeData buf (i + 1) elapsed }) ∧
    (∀ t, s.xferFault = false → s.params.fifoDepth ≤ s.txf.length →
      s.params.tCfgUs = some t → t ≤ elapsed →
      runEnv .poll s =
        .next (({ s with port := .idle, phase := .error }).answers (.err .general) buf)) ∧
    (s.xferFault = false → s.params.fifoDepth ≤ s.txf.length →
      (∀ t, s.params.tCfgUs = some t → elapsed < t) → runEnv .poll s = .next s)

/-- R130, with `busy` as R29 defines it. -/
def Obligations.PollWaitWhileBusyOutcomes : Prop :=
  ∀ (s : State) (timeoutUs : Word) (elapsed : Nat), s.port = .waitWhileBusy timeoutUs elapsed →
    let busy := s.respReady = true ∨ s.tuningActive = true ∨ 0 < s.txf.length
    (¬ busy → runEnv .poll s = .next (({ s with port := .idle }).answers (.ok .unit) [])) ∧
    (busy → timeoutUs.toNat ≤ elapsed →
      runEnv .poll s =
        .next (({ s with port := .idle, phase := .error }).answers (.err .general) [])) ∧
    (busy → elapsed < timeoutUs.toNat → runEnv .poll s = .next s)

/-- R134: done when the request bit is 0; withdrawn, with the fault, on expiry. -/
def Obligations.PollWaitForResetOutcomes : Prop :=
  ∀ (s : State) (line : ResetLine) (timeoutUs : Word) (elapsed : Nat),
    s.port = .waitForReset line timeoutUs elapsed →
    (s.rstReq.get line = false →
      runEnv .poll s = .next (({ s with port := .idle }).answers (.ok .unit) [])) ∧
    (s.rstReq.get line = true → timeoutUs.toNat ≤ elapsed →
      ∃ q : ResetRequests, q.get line = false ∧
        (∀ r, r ≠ line → q.get r = s.rstReq.get r) ∧
        runEnv .poll s = .next (({ s with rstReq := q, port := .idle, phase := .error }).answers
          (.err .general) [])) ∧
    (s.rstReq.get line = true → elapsed < timeoutUs.toNat → runEnv .poll s = .next s)

/-! ## The steps of the host, the hardware and the clock -/

/-- R151: what the host takes, and the phase only from ResponseReady. R151 says when the step is
enabled; that it changes nothing where it is not is the model's (log 2, log 14), and so is the list
`hostFrames` of the frames taken (log 6). -/
def Obligations.HostTakeResponseEffect : Prop :=
  ∀ s : State,
    (s.respReady = true →
      runEnv .takeResponse s = .next { s with
        respReady := false, rintSt := s.rintSt ||| 4, hostFrames := s.hostFrames ++ [s.respReg],
        phase := if s.phase = .responseReady then .standby else s.phase }) ∧
    (s.respReady = false → runEnv .takeResponse s = .next s)

/-- R152, R153: the host's ends of the two FIFOs. The rules say when the steps are enabled; that they
change nothing where they are not is the model's (log 2, log 14), and so are the lists `hostPushed`
and `hostPopped` (log 6). -/
def Obligations.HostFifoEffect : Prop :=
  ∀ (s : State) (b : Byte),
    (s.phase ≠ .uninitialized → s.rxf.length < s.params.fifoDepth →
      runEnv (.pushByte b) s = .next { s with
        rxf := s.rxf ++ [b], intSt := s.intSt ||| 1, hostPushed := s.hostPushed ++ [b] }) ∧
    (s.phase = .uninitialized ∨ s.params.fifoDepth ≤ s.rxf.length →
      runEnv (.pushByte b) s = .next s) ∧
    (∀ rest, s.txf = b :: rest →
      runEnv .popByte s = .next { s with
        txf := rest, hostPopped := s.hostPopped ++ [b],
        intSt := if rest = [] then s.intSt ||| 2 else s.intSt }) ∧
    (s.txf = [] → runEnv .popByte s = .next s)

/-- R154, R157: the fault flag and the end of a tuning sequence. The rules say when the steps are
enabled; that they change nothing where they are not is the model's (log 2, log 14). -/
def Obligations.FaultAndTuningDoneEffect : Prop :=
  ∀ s : State,
    (s.phase = .dataTransfer →
      runEnv .busFault s = .next { s with xferFault := true, intSt := s.intSt ||| 4 }) ∧
    (s.phase ≠ .dataTransfer → runEnv .busFault s = .next s) ∧
    (s.tuningActive = true →
      runEnv .tuningDone s = .next { s with tuningActive := false, intSt := s.intSt ||| 16 }) ∧
    (s.tuningActive = false → runEnv .tuningDone s = .next s)

/-- R156, lines Cmd and Data. R156 enables a line's reset only while its request bit is 1; that the
step changes nothing where the bit is 0 is the model's choice (log 2, log 14). -/
def Obligations.ScopedResetEffect : Prop :=
  ∀ s : State,
    (s.rstReq.cmd = true →
      runEnv (.hwReset .cmd) s = .next { s with
        cmdLatch := 0, cmdPending := false, cmdCrcFail := false, curIndex := 0,
        respReg := 0, respReady := false, rstReq := { s.rstReq with cmd := false },
        intSt := s.intSt ||| 8,
        phase := if s.phase ∈ [.commandPending, .responseReady, .error] then .standby
          else s.phase }) ∧
    (s.rstReq.data = true →
      runEnv (.hwReset .data) s = .next { s with
        rxf := [], txf := [], xferFault := false, tuningActive := false,
        rstReq := { s.rstReq with data := false }, intSt := s.intSt ||| 8,
        phase := if s.phase ∈ [.dataTransfer, .error] then .standby else s.phase }) ∧
    (∀ line, s.rstReq.get line = false → runEnv (.hwReset line) s = .next s)

/-- R156, line All: every field to its reset value but `port`; of `int_st`, `rint_st` and the tuning
operands, which R33 leaves unspecified, nothing is said. The draw counter is the model's own (log 5). -/
def Obligations.FullResetEffect : Prop :=
  ∀ s : State, s.rstReq.all = true →
    ∃ (intSt rintSt : Word) (mode : TuningMode) (width : TuningWidth),
      runEnv (.hwReset .all) s = .next { s with
        phase := .uninitialized, busReady := false, cmdLatch := 0, cmdPending := false,
        cmdCrcFail := false, curIndex := 0, respReg := 0, respReady := false, rxf := [],
        txf := [], xferFault := false, rstReq := ⟨false, false, false⟩, tuningActive := false,
        tuningMode := mode, tuningWidth := width, intSt := intSt, rintSt := rintSt,
        draws := s.draws + 1 }

/-- R160: one TICK adds one microsecond to the operation in flight and touches nothing else. R160
enables it only with an operation in flight; that it changes nothing on an idle port is the model's
(log 2). -/
def Obligations.TickEffect : Prop :=
  ∀ (s : State) (elapsed : Nat) (buf : List Byte) (i : Nat) (timeoutUs : Word) (line : ResetLine),
    (s.port = .idle → runEnv .tick s = .next s) ∧
    (s.port = .readCommand elapsed →
      runEnv .tick s = .next { s with port := .readCommand (elapsed + 1) }) ∧
    (s.port = .readData buf i elapsed →
      runEnv .tick s = .next { s with port := .readData buf i (elapsed + 1) }) ∧
    (s.port = .writeData buf i elapsed →
      runEnv .tick s = .next { s with port := .writeData buf i (elapsed + 1) }) ∧
    (s.port = .waitWhileBusy timeoutUs elapsed →
      runEnv .tick s = .next { s with port := .waitWhileBusy timeoutUs (elapsed + 1) }) ∧
    (s.port = .waitForReset line timeoutUs elapsed →
      runEnv .tick s = .next { s with port := .waitForReset line timeoutUs (elapsed + 1) })

/-- R158: in Uninitialized with an idle port no step of the host, the hardware or the clock is
enabled. It is said in the model's terms, where a step that is not enabled answers the same state:
that it changes nothing is the model's choice (log 2). -/
def Obligations.UninitializedIsQuiescent : Prop :=
  ∀ (s : State) (e : EnvStep), s.Inv → s.phase = .uninitialized → s.port = .idle →
    runEnv e s = .next s

/-! ## Frames: what the instructions leave unchanged -/

/-- The operations that only report add their result and nothing else; the writers of one interrupt
register change that register too, never the other group's (R145: the groups are independent). -/
def Obligations.ReportAndInterruptFrame : Prop :=
  ∀ (s t : State) (w : Word) (op : Opsel),
    (∀ i ∈ [.cardType, .cardMode, .fifoReady w, .interrupt, .responseInterrupt, .reserved12To13 op,
         .reserved14To17 op, .reserved18To1F op, .reserved20To3F op, .reserved40To7F op,
         .reserved80ToFF op], exec i s = .next t → ∃ r, t = s.answers r []) ∧
    (∀ i ∈ [.setInterrupt w, .clearAllInterrupt], exec i s = .next t →
      ∃ r x, t = ({ s with intSt := x }).answers r []) ∧
    (∀ i ∈ [.setResponseInterrupt w, .clearAllResponseInterrupt], exec i s = .next t →
      ∃ r x, t = ({ s with rintSt := x }).answers r [])

/-- The issue steps of the blocking operations: the port, a reset request, and for an empty data
operation the phase. The bytes of both FIFOs stay. -/
def Obligations.BlockingIssueFrame : Prop :=
  ∀ (s t : State) (a b : Word) (buf : List Byte),
    (∀ i ∈ [.readCommand, .waitWhileBusy a], exec i s = .next t →
      t = { s with port := t.port, results := t.results }) ∧
    (exec (.waitForReset a b) s = .next t →
      t = { s with port := t.port, rstReq := t.rstReq, results := t.results }) ∧
    (∀ i ∈ [.readData buf, .writeData buf], exec i s = .next t →
      t = { s with port := t.port, phase := t.phase, results := t.results })

/-- The operations that set up, arm or answer: only the fields their rules write, and one more result
for the caller. -/
def Obligations.ControlOperationsFrame : Prop :=
  ∀ (s t : State) (a b payload : Word) (index : Index) (withCrc : Bool),
    (exec .setupBus s = .next t → ∃ r, t = ({ s with busReady := t.busReady }).answers r []) ∧
    (exec (.sendTuning a b) s = .next t →
      ∃ r, t = ({ s with tuningActive := t.tuningActive, tuningMode := t.tuningMode,
                         tuningWidth := t.tuningWidth }).answers r []) ∧
    (exec (.writeResponse index withCrc payload) s = .next t →
      ∃ r, t = ({ s with respReg := t.respReg, respReady := t.respReady,
                         phase := t.phase }).answers r []) ∧
    (exec .init s = .next t → (∃ r, t.results = s.results ++ [⟨r, []⟩]) ∧
      t.port = s.port ∧ t.tuningMode = s.tuningMode ∧ t.tuningWidth = s.tuningWidth ∧
      t.params = s.params ∧ t.inputs = s.inputs ∧ t.hostFrames = s.hostFrames ∧
      t.hostPopped = s.hostPopped ∧ t.hostPushed = s.hostPushed ∧ t.draws = s.draws)

/-- The two frames: the latch, its flags, and the two event bits of `rint_st`. -/
def Obligations.FrameInstructionsFrame : Prop :=
  ∀ (s t : State) (index : Index) (word : Word) (crc : Crc7) (i : Instr),
    i ∈ [.cmd48 index word crc, .rsp48 index word crc] → exec i s = .next t →
    t = { s with cmdLatch := t.cmdLatch, cmdPending := t.cmdPending, cmdCrcFail := t.cmdCrcFail,
                 rintSt := t.rintSt } ∧
    ∀ k, k ≠ 0 → k ≠ 1 → t.rintSt.getLsbD k = s.rintSt.getLsbD k

/-! ## The step -/

/-- One step takes the next listed input: a request on an idle port runs the instruction it decodes
to, a frame the instruction it decodes to, another agent's step that step. The input leaves the
list and nothing else is added (log 1). -/
def Obligations.StepRunsTheNextInput : Prop :=
  ∀ (s : State) (rest : List Input),
    (∀ r, s.inputs = .request r :: rest → s.port = .idle →
      step s = exec (decodeRequest r) { s with inputs := rest }) ∧
    (∀ f i, s.inputs = .env (.sendCommand f) :: rest → decodeFrame f = .ok i →
      step s = exec i { s with inputs := rest }) ∧
    (∀ e, s.inputs = .env e :: rest → step s = runEnv e { s with inputs := rest }) ∧
    (∀ i : Instr, i.wellFormed = true →
      step ((({ s with port := .idle }).present (encode i))) = exec i { s with port := .idle })

/-- R8, R199: a request waits while an operation is in flight; the step is then one of another agent
(which one is free, log 1), and the request stays first. -/
def Obligations.RequestWaitsWhileInFlight : Prop :=
  ∀ (s t : State) (r : Request) (rest : List Input),
    s.inputs = .request r :: rest → s.port ≠ .idle →
    (∃ e, step s = runEnv e { s with draws := s.draws + 1 }) ∧
    (step s = .next t → t.inputs = .request r :: rest) ∧
    (∀ i, isDriverInstr i = true → exec i s = .refused .operationInFlight)

/-! ## Errors, phases and guards over the whole machine -/

/-- R102, R175: an operation whose guard fails answers `Err(General)` and writes no field, the caller
buffer included; the same holds for the `Err(Unimplemented)` of a reserved OPSEL. -/
def Obligations.MisuseChangesNothing : Prop :=
  ∀ (i : Instr) (s : State), isDriverInstr i = true → s.port = .idle →
    (legal i s = false → exec i s = .next (s.answers (.err .general) (callerBuf i))) ∧
    (isReserved i = true → exec i s = .next (s.answers (.err .unimplemented) []))

/-- R102, R76: an operation whose guard holds never answers an error in its issue step, but for the
reserved codes; in particular no operation of R75 answers `Unimplemented`. -/
def Obligations.LegalIssueIsNoError : Prop :=
  ∀ (i : Instr) (s : State), isDriverInstr i = true → isReserved i = false → s.port = .idle →
    legal i s = true →
    ∃ t, exec i s = .next t ∧
      (t.results = s.results ∧ t.port ≠ .idle ∨
       ∃ r, t.results = s.results ++ [⟨r, callerBuf i⟩] ∧ t.port = .idle ∧ ∀ e, r ≠ .err e)

/-- R100: the phase is written by exactly the rows of the table and by no other step; row T17 is the
phase a run starts in. -/
def Obligations.PhaseWrittenOnlyByTable : Prop :=
  State.reset.phase = .uninitialized ∧
  ∀ s t : State, s.Inv → step s = .next t →
    (t.phase ≠ s.phase → PhaseRow s s.nextInput t.phase) ∧
    (∀ p, PhaseRow s s.nextInput p → t.phase = p)

/-- R171: an error result comes only from a row of the table, and every row gives its error; the
phase becomes Error exactly where the row says so. -/
def Obligations.ErrorsOnlyFromTable : Prop :=
  ∀ s t : State, s.Inv → step s = .next t →
    (∀ e buf, t.results = s.results ++ [⟨.err e, buf⟩] →
      ∃ enters, ErrorRow s s.nextInput e enters) ∧
    (∀ e enters, ErrorRow s s.nextInput e enters →
      (∃ buf, t.results = s.results ++ [⟨.err e, buf⟩]) ∧
      t.phase = if enters = true then .error else s.phase)

/-- R179: Error is left by exactly four steps, with the phase each leaves. -/
def Obligations.ErrorLeftByFourSteps : Prop :=
  ∀ s t : State, s.Inv → s.phase = .error → step s = .next t → t.phase ≠ .error →
    (∃ r, s.nextInput = .request r ∧ decodeRequest r = .init ∧ t.phase = .standby ∧
      t.busReady = false) ∨
    (s.nextInput = .env (.hwReset .all) ∧ s.rstReq.all = true ∧ t.phase = .uninitialized) ∨
    (s.nextInput = .env (.hwReset .cmd) ∧ s.rstReq.cmd = true ∧ t.phase = .standby ∧
      t.busReady = s.busReady) ∨
    (s.nextInput = .env (.hwReset .data) ∧ s.rstReq.data = true ∧ t.phase = .standby ∧
      t.busReady = s.busReady)

/-- R14, R15, R18, R19: which steps write the codec's registers. -/
def Obligations.CodecRegistersWrittenOnlyBy : Prop :=
  ∀ s t : State, step s = .next t →
    let i := s.nextInput
    let byInit := ∃ r, i = .request r ∧ decodeRequest r = .init
    let byReset := i = .env (.hwReset .all) ∨ i = .env (.hwReset .cmd)
    (t.busReady ≠ s.busReady → byInit ∨ i = .env (.hwReset .all) ∨
      ∃ r, i = .request r ∧ decodeRequest r = .setupBus) ∧
    (t.cmdLatch ≠ s.cmdLatch → byInit ∨ byReset ∨ ∃ f, i = .env (.sendCommand f)) ∧
    (t.curIndex ≠ s.curIndex → byInit ∨ byReset ∨
      (i = .env .poll ∧ ∃ elapsed, s.port = .readCommand elapsed)) ∧
    (t.respReg ≠ s.respReg → byInit ∨ byReset ∨
      ∃ r index withCrc payload, i = .request r ∧
        decodeRequest r = .writeResponse index withCrc payload)

/-- R203, R23, R25: the fault flag is cleared only by `init`, line All and line Data, and set only by
BUS_FAULT; a tuning sequence is armed only by `send_tuning`. -/
def Obligations.DataFlagsWrittenOnlyBy : Prop :=
  ∀ s t : State, step s = .next t →
    let i := s.nextInput
    (s.xferFault = true → t.xferFault = false →
      (∃ r, i = .request r ∧ decodeRequest r = .init) ∨ i = .env (.hwReset .all) ∨
      i = .env (.hwReset .data)) ∧
    (s.xferFault = false → t.xferFault = true → i = .env .busFault) ∧
    (s.tuningActive = false → t.tuningActive = true →
      ∃ r mode width, i = .request r ∧ decodeRequest r = .sendTuning mode width) ∧
    (s.tuningActive = true → t.tuningActive = false →
      (∃ r, i = .request r ∧ decodeRequest r = .init) ∨ i = .env (.hwReset .all) ∨
      i = .env (.hwReset .data) ∨ i = .env .tuningDone)

/-- R26: an interrupt bit is sticky: it goes from 1 to 0 only by the clear-all of its group, `init`, or
line All. -/
def Obligations.InterruptBitsAreSticky : Prop :=
  ∀ (s t : State) (k : Nat), step s = .next t →
    let i := s.nextInput
    (s.intSt.getLsbD k = true → t.intSt.getLsbD k = false →
      (∃ r, i = .request r ∧
        (decodeRequest r = .clearAllInterrupt ∨ decodeRequest r = .init)) ∨
      i = .env (.hwReset .all)) ∧
    (s.rintSt.getLsbD k = true → t.rintSt.getLsbD k = false →
      (∃ r, i = .request r ∧
        (decodeRequest r = .clearAllResponseInterrupt ∨ decodeRequest r = .init)) ∨
      i = .env (.hwReset .all))

/-- R173: no step is caused or changed by a pending interrupt bit: two states that differ only in the
two interrupt registers step alike, and to states that differ only there and, where the step is a
read of one of them, in the one value it reports. -/
def Obligations.PendingBitsCauseNothing : Prop :=
  ∀ (s : State) (a b : Word),
    (∀ t, step s = .next t → ∃ a' b' rs,
      step { s with intSt := a, rintSt := b } =
        .next { t with intSt := a', rintSt := b', results := rs } ∧
      (rs = t.results ∨ ∃ r, s.nextInput = .request r ∧
        (decodeRequest r = .interrupt ∧
          t.results = s.results ++ [⟨.ok (.word s.intSt), []⟩] ∧
          rs = s.results ++ [⟨.ok (.word a), []⟩] ∨
        decodeRequest r = .responseInterrupt ∧
          t.results = s.results ++ [⟨.ok (.word s.rintSt), []⟩] ∧
          rs = s.results ++ [⟨.ok (.word b), []⟩]))) ∧
    (∀ f, step s = .fault f → step { s with intSt := a, rintSt := b } = .fault f)

/-! ## Reset and the invariants -/

/-- R33, R190: the power-on values the spec gives. -/
def Obligations.ResetValues : Prop :=
  let s := State.reset
  s.phase = .uninitialized ∧ s.port = .idle ∧ s.busReady = false ∧ s.cmdPending = false ∧
  s.cmdCrcFail = false ∧ s.respReady = false ∧ s.rxf = [] ∧ s.txf = [] ∧ s.xferFault = false ∧
  s.rstReq.all = false ∧ s.rstReq.cmd = false ∧ s.rstReq.data = false ∧ s.tuningActive = false

/-- The invariant holds at power-on. -/
def Obligations.InvariantAtReset : Prop := State.reset.Inv

/-- R35 (with the clauses of `State.InvMore`, which are the model's deduction): every step keeps it. -/
def Obligations.StepKeepsInvariant : Prop :=
  ∀ s t : State, s.Inv → step s = .next t → t.Inv

/-- R35: its ten items hold after any number of steps from power-on, whatever the outside presents. -/
def Obligations.ReachableStatesMeetR35 : Prop :=
  ∀ (inputs : List Input) (k : Nat) (t : State),
    Host.Core.run Sys2Proof.core k { State.reset with inputs := inputs } = .next t → t.Inv35

/-- The block never stops: from every state of the invariant a step answers a next state, whatever
request, frame or step of another agent comes next, and it carries the parameters along. -/
def Obligations.BlockNeverStops : Prop :=
  ∀ s : State, s.Inv → ∃ t, step s = .next t ∧ t.params = s.params

/-! ## Runs -/

/-- R48, R127, R128, R135 (a) for `write_data`: from an idle DataTransfer, whatever the other agents do
during and after the operation, the bytes the host has popped since the issue followed by those still
in `txf` are what was in `txf` at the issue followed by the bytes of `b` moved so far; a result `Ok`
means all of `b` was moved. -/
def Obligations.WriteDataRoundTrip : Prop :=
  ∀ (s t : State) (a b : Word) (buf : List Byte) (es : List EnvStep),
    s.Inv → s.port = .idle → s.phase = .dataTransfer →
    s.inputs = .request ⟨0x08, a, b, buf⟩ :: es.map .env →
    Host.Core.run Sys2Proof.core (es.length + 1) s = .next t →
    ∃ moved popped, moved <+: buf ∧ t.hostPopped = s.hostPopped ++ popped ∧
      popped ++ t.txf = s.txf ++ moved ∧
      (t.results = s.results ++ [⟨.ok .unit, buf⟩] → moved = buf)

/-- R48, R127, R128, R135 (a) for `read_data`: when it completes, the caller's buffer holds the bytes
taken, then what the caller had there; the bytes taken followed by those in `rxf` are what was in
`rxf` at the issue followed by what the host pushed since; a result `Ok` means the buffer is full. -/
def Obligations.ReadDataRoundTrip : Prop :=
  ∀ (s t : State) (a b : Word) (buf buf' : List Byte) (r : Result) (es : List EnvStep),
    s.Inv → s.port = .idle → s.phase = .dataTransfer →
    s.inputs = .request ⟨0x07, a, b, buf⟩ :: es.map .env →
    Host.Core.run Sys2Proof.core (es.length + 1) s = .next t →
    t.results = s.results ++ [⟨r, buf'⟩] →
    ∃ taken pushed, t.hostPushed = s.hostPushed ++ pushed ∧
      taken ++ t.rxf = s.rxf ++ pushed ∧
      buf' = taken ++ buf.drop taken.length ∧ taken.length ≤ buf.length ∧
      (r = .ok .unit → taken.length = buf.length)

/-- R115 (d): a legal command the host sends in Standby, `cmd(i, a)` of R85, is what `read_command`
returns. -/
def Obligations.CommandRoundTrip : Prop :=
  ∀ (s : State) (index : Index) (arg : Word),
    s.phase = .standby → s.port = .idle → s.busReady = true → s.cmdPending = false →
    s.respReady = false → s.params.legalCmd index arg = true →
    let crc := crc7 (0b01#2 ++ index ++ arg : BitVec 40)
    cmd index arg = 0b01#2 ++ index ++ arg ++ crc ++ 1#1 ∧
    (s.inputs = [.env (.sendCommand (cmd index arg)), .request ⟨0x10, 0, 0, []⟩, .env .poll] →
     ∃ t, Host.Core.run Sys2Proof.core 3 s = .next t ∧
      t.results = s.results ++ [⟨.ok (.command ⟨index, arg, crc⟩), []⟩] ∧
      t.phase = .commandPending ∧ t.curIndex = index ∧ t.cmdPending = false)

/-- R135 (c): an operation with a finite timeout `n` is over after `n` microseconds and then as many
POLLs as it has bytes left to move (one for an operation that is no pump), with exactly one result,
whatever steps the other agents take before, between and after them. -/
def Obligations.FiniteTimeoutCompletes : Prop :=
  ∀ (s : State) (n : Nat) (before after : List EnvStep), s.Inv → s.timeoutOf = some n →
    n ≤ before.count .tick → s.pollsLeft ≤ after.count .poll →
    s.inputs = (before ++ after).map .env →
    ∃ t r, Host.Core.run Sys2Proof.core (before ++ after).length s = .next t ∧ t.port = .idle ∧
      t.inputs = [] ∧ t.results = s.results ++ [r]
end

