-- ==== Sys2Proof/Laws/State.lean ====
section
/-! SUPPORT. One lemma per field per named update of the state, true by definition: later proofs
rewrite a field of an updated state without unfolding the update. -/

namespace Sys2Proof.Machine.State

variable (s : State)

/-! ### complete -/

@[simp] theorem complete_phase (r : Result) (buf : List Byte) :
    (s.complete r buf).phase = s.phase := rfl
@[simp] theorem complete_port (r : Result) (buf : List Byte) :
    (s.complete r buf).port = .idle := rfl
@[simp] theorem complete_busReady (r : Result) (buf : List Byte) :
    (s.complete r buf).busReady = s.busReady := rfl
@[simp] theorem complete_cmdLatch (r : Result) (buf : List Byte) :
    (s.complete r buf).cmdLatch = s.cmdLatch := rfl
@[simp] theorem complete_cmdPending (r : Result) (buf : List Byte) :
    (s.complete r buf).cmdPending = s.cmdPending := rfl
@[simp] theorem complete_cmdCrcFail (r : Result) (buf : List Byte) :
    (s.complete r buf).cmdCrcFail = s.cmdCrcFail := rfl
@[simp] theorem complete_curIndex (r : Result) (buf : List Byte) :
    (s.complete r buf).curIndex = s.curIndex := rfl
@[simp] theorem complete_respReg (r : Result) (buf : List Byte) :
    (s.complete r buf).respReg = s.respReg := rfl
@[simp] theorem complete_respReady (r : Result) (buf : List Byte) :
    (s.complete r buf).respReady = s.respReady := rfl
@[simp] theorem complete_rxf (r : Result) (buf : List Byte) : (s.complete r buf).rxf = s.rxf := rfl
@[simp] theorem complete_txf (r : Result) (buf : List Byte) : (s.complete r buf).txf = s.txf := rfl
@[simp] theorem complete_xferFault (r : Result) (buf : List Byte) :
    (s.complete r buf).xferFault = s.xferFault := rfl
@[simp] theorem complete_rstReq (r : Result) (buf : List Byte) :
    (s.complete r buf).rstReq = s.rstReq := rfl
@[simp] theorem complete_tuningActive (r : Result) (buf : List Byte) :
    (s.complete r buf).tuningActive = s.tuningActive := rfl
@[simp] theorem complete_tuningMode (r : Result) (buf : List Byte) :
    (s.complete r buf).tuningMode = s.tuningMode := rfl
@[simp] theorem complete_tuningWidth (r : Result) (buf : List Byte) :
    (s.complete r buf).tuningWidth = s.tuningWidth := rfl
@[simp] theorem complete_intSt (r : Result) (buf : List Byte) :
    (s.complete r buf).intSt = s.intSt := rfl
@[simp] theorem complete_rintSt (r : Result) (buf : List Byte) :
    (s.complete r buf).rintSt = s.rintSt := rfl
@[simp] theorem complete_params (r : Result) (buf : List Byte) :
    (s.complete r buf).params = s.params := rfl
@[simp] theorem complete_inputs (r : Result) (buf : List Byte) :
    (s.complete r buf).inputs = s.inputs := rfl
@[simp] theorem complete_results (r : Result) (buf : List Byte) :
    (s.complete r buf).results = s.results ++ [⟨r, buf⟩] := rfl
@[simp] theorem complete_hostFrames (r : Result) (buf : List Byte) :
    (s.complete r buf).hostFrames = s.hostFrames := rfl
@[simp] theorem complete_hostPopped (r : Result) (buf : List Byte) :
    (s.complete r buf).hostPopped = s.hostPopped := rfl
@[simp] theorem complete_hostPushed (r : Result) (buf : List Byte) :
    (s.complete r buf).hostPushed = s.hostPushed := rfl
@[simp] theorem complete_draws (r : Result) (buf : List Byte) :
    (s.complete r buf).draws = s.draws := rfl

/-! ### misuse -/

@[simp] theorem misuse_phase (buf : List Byte) : (s.misuse buf).phase = s.phase := rfl
@[simp] theorem misuse_port (buf : List Byte) : (s.misuse buf).port = .idle := rfl
@[simp] theorem misuse_busReady (buf : List Byte) : (s.misuse buf).busReady = s.busReady := rfl
@[simp] theorem misuse_cmdLatch (buf : List Byte) : (s.misuse buf).cmdLatch = s.cmdLatch := rfl
@[simp] theorem misuse_cmdPending (buf : List Byte) :
    (s.misuse buf).cmdPending = s.cmdPending := rfl
@[simp] theorem misuse_cmdCrcFail (buf : List Byte) :
    (s.misuse buf).cmdCrcFail = s.cmdCrcFail := rfl
@[simp] theorem misuse_curIndex (buf : List Byte) : (s.misuse buf).curIndex = s.curIndex := rfl
@[simp] theorem misuse_respReg (buf : List Byte) : (s.misuse buf).respReg = s.respReg := rfl
@[simp] theorem misuse_respReady (buf : List Byte) : (s.misuse buf).respReady = s.respReady := rfl
@[simp] theorem misuse_rxf (buf : List Byte) : (s.misuse buf).rxf = s.rxf := rfl
@[simp] theorem misuse_txf (buf : List Byte) : (s.misuse buf).txf = s.txf := rfl
@[simp] theorem misuse_xferFault (buf : List Byte) : (s.misuse buf).xferFault = s.xferFault := rfl
@[simp] theorem misuse_rstReq (buf : List Byte) : (s.misuse buf).rstReq = s.rstReq := rfl
@[simp] theorem misuse_tuningActive (buf : List Byte) :
    (s.misuse buf).tuningActive = s.tuningActive := rfl
@[simp] theorem misuse_tuningMode (buf : List Byte) :
    (s.misuse buf).tuningMode = s.tuningMode := rfl
@[simp] theorem misuse_tuningWidth (buf : List Byte) :
    (s.misuse buf).tuningWidth = s.tuningWidth := rfl
@[simp] theorem misuse_intSt (buf : List Byte) : (s.misuse buf).intSt = s.intSt := rfl
@[simp] theorem misuse_rintSt (buf : List Byte) : (s.misuse buf).rintSt = s.rintSt := rfl
@[simp] theorem misuse_params (buf : List Byte) : (s.misuse buf).params = s.params := rfl
@[simp] theorem misuse_inputs (buf : List Byte) : (s.misuse buf).inputs = s.inputs := rfl
@[simp] theorem misuse_results (buf : List Byte) :
    (s.misuse buf).results = s.results ++ [⟨.err .general, buf⟩] := rfl
@[simp] theorem misuse_hostFrames (buf : List Byte) :
    (s.misuse buf).hostFrames = s.hostFrames := rfl
@[simp] theorem misuse_hostPopped (buf : List Byte) :
    (s.misuse buf).hostPopped = s.hostPopped := rfl
@[simp] theorem misuse_hostPushed (buf : List Byte) :
    (s.misuse buf).hostPushed = s.hostPushed := rfl
@[simp] theorem misuse_draws (buf : List Byte) : (s.misuse buf).draws = s.draws := rfl

/-! ### enterError -/

@[simp] theorem enterError_phase (e : Err) (buf : List Byte) :
    (s.enterError e buf).phase = .error := rfl
@[simp] theorem enterError_port (e : Err) (buf : List Byte) :
    (s.enterError e buf).port = .idle := rfl
@[simp] theorem enterError_busReady (e : Err) (buf : List Byte) :
    (s.enterError e buf).busReady = s.busReady := rfl
@[simp] theorem enterError_cmdLatch (e : Err) (buf : List Byte) :
    (s.enterError e buf).cmdLatch = s.cmdLatch := rfl
@[simp] theorem enterError_cmdPending (e : Err) (buf : List Byte) :
    (s.enterError e buf).cmdPending = s.cmdPending := rfl
@[simp] theorem enterError_cmdCrcFail (e : Err) (buf : List Byte) :
    (s.enterError e buf).cmdCrcFail = s.cmdCrcFail := rfl
@[simp] theorem enterError_curIndex (e : Err) (buf : List Byte) :
    (s.enterError e buf).curIndex = s.curIndex := rfl
@[simp] theorem enterError_respReg (e : Err) (buf : List Byte) :
    (s.enterError e buf).respReg = s.respReg := rfl
@[simp] theorem enterError_respReady (e : Err) (buf : List Byte) :
    (s.enterError e buf).respReady = s.respReady := rfl
@[simp] theorem enterError_rxf (e : Err) (buf : List Byte) : (s.enterError e buf).rxf = s.rxf := rfl
@[simp] theorem enterError_txf (e : Err) (buf : List Byte) : (s.enterError e buf).txf = s.txf := rfl
@[simp] theorem enterError_xferFault (e : Err) (buf : List Byte) :
    (s.enterError e buf).xferFault = s.xferFault := rfl
@[simp] theorem enterError_rstReq (e : Err) (buf : List Byte) :
    (s.enterError e buf).rstReq = s.rstReq := rfl
@[simp] theorem enterError_tuningActive (e : Err) (buf : List Byte) :
    (s.enterError e buf).tuningActive = s.tuningActive := rfl
@[simp] theorem enterError_tuningMode (e : Err) (buf : List Byte) :
    (s.enterError e buf).tuningMode = s.tuningMode := rfl
@[simp] theorem enterError_tuningWidth (e : Err) (buf : List Byte) :
    (s.enterError e buf).tuningWidth = s.tuningWidth := rfl
@[simp] theorem enterError_intSt (e : Err) (buf : List Byte) :
    (s.enterError e buf).intSt = s.intSt := rfl
@[simp] theorem enterError_rintSt (e : Err) (buf : List Byte) :
    (s.enterError e buf).rintSt = s.rintSt := rfl
@[simp] theorem enterError_params (e : Err) (buf : List Byte) :
    (s.enterError e buf).params = s.params := rfl
@[simp] theorem enterError_inputs (e : Err) (buf : List Byte) :
    (s.enterError e buf).inputs = s.inputs := rfl
@[simp] theorem enterError_results (e : Err) (buf : List Byte) :
    (s.enterError e buf).results = s.results ++ [⟨.err e, buf⟩] := rfl
@[simp] theorem enterError_hostFrames (e : Err) (buf : List Byte) :
    (s.enterError e buf).hostFrames = s.hostFrames := rfl
@[simp] theorem enterError_hostPopped (e : Err) (buf : List Byte) :
    (s.enterError e buf).hostPopped = s.hostPopped := rfl
@[simp] theorem enterError_hostPushed (e : Err) (buf : List Byte) :
    (s.enterError e buf).hostPushed = s.hostPushed := rfl
@[simp] theorem enterError_draws (e : Err) (buf : List Byte) :
    (s.enterError e buf).draws = s.draws := rfl

/-! ### answers -/

@[simp] theorem answers_phase (r : Result) (buf : List Byte) :
    (s.answers r buf).phase = s.phase := rfl
@[simp] theorem answers_port (r : Result) (buf : List Byte) : (s.answers r buf).port = s.port := rfl
@[simp] theorem answers_busReady (r : Result) (buf : List Byte) :
    (s.answers r buf).busReady = s.busReady := rfl
@[simp] theorem answers_cmdLatch (r : Result) (buf : List Byte) :
    (s.answers r buf).cmdLatch = s.cmdLatch := rfl
@[simp] theorem answers_cmdPending (r : Result) (buf : List Byte) :
    (s.answers r buf).cmdPending = s.cmdPending := rfl
@[simp] theorem answers_cmdCrcFail (r : Result) (buf : List Byte) :
    (s.answers r buf).cmdCrcFail = s.cmdCrcFail := rfl
@[simp] theorem answers_curIndex (r : Result) (buf : List Byte) :
    (s.answers r buf).curIndex = s.curIndex := rfl
@[simp] theorem answers_respReg (r : Result) (buf : List Byte) :
    (s.answers r buf).respReg = s.respReg := rfl
@[simp] theorem answers_respReady (r : Result) (buf : List Byte) :
    (s.answers r buf).respReady = s.respReady := rfl
@[simp] theorem answers_rxf (r : Result) (buf : List Byte) : (s.answers r buf).rxf = s.rxf := rfl
@[simp] theorem answers_txf (r : Result) (buf : List Byte) : (s.answers r buf).txf = s.txf := rfl
@[simp] theorem answers_xferFault (r : Result) (buf : List Byte) :
    (s.answers r buf).xferFault = s.xferFault := rfl
@[simp] theorem answers_rstReq (r : Result) (buf : List Byte) :
    (s.answers r buf).rstReq = s.rstReq := rfl
@[simp] theorem answers_tuningActive (r : Result) (buf : List Byte) :
    (s.answers r buf).tuningActive = s.tuningActive := rfl
@[simp] theorem answers_tuningMode (r : Result) (buf : List Byte) :
    (s.answers r buf).tuningMode = s.tuningMode := rfl
@[simp] theorem answers_tuningWidth (r : Result) (buf : List Byte) :
    (s.answers r buf).tuningWidth = s.tuningWidth := rfl
@[simp] theorem answers_intSt (r : Result) (buf : List Byte) :
    (s.answers r buf).intSt = s.intSt := rfl
@[simp] theorem answers_rintSt (r : Result) (buf : List Byte) :
    (s.answers r buf).rintSt = s.rintSt := rfl
@[simp] theorem answers_params (r : Result) (buf : List Byte) :
    (s.answers r buf).params = s.params := rfl
@[simp] theorem answers_inputs (r : Result) (buf : List Byte) :
    (s.answers r buf).inputs = s.inputs := rfl
@[simp] theorem answers_results (r : Result) (buf : List Byte) :
    (s.answers r buf).results = s.results ++ [⟨r, buf⟩] := rfl
@[simp] theorem answers_hostFrames (r : Result) (buf : List Byte) :
    (s.answers r buf).hostFrames = s.hostFrames := rfl
@[simp] theorem answers_hostPopped (r : Result) (buf : List Byte) :
    (s.answers r buf).hostPopped = s.hostPopped := rfl
@[simp] theorem answers_hostPushed (r : Result) (buf : List Byte) :
    (s.answers r buf).hostPushed = s.hostPushed := rfl
@[simp] theorem answers_draws (r : Result) (buf : List Byte) :
    (s.answers r buf).draws = s.draws := rfl

/-! ### consumeLatch -/

@[simp] theorem consumeLatch_phase : (s.consumeLatch).phase = s.phase := rfl
@[simp] theorem consumeLatch_port : (s.consumeLatch).port = s.port := rfl
@[simp] theorem consumeLatch_busReady : (s.consumeLatch).busReady = s.busReady := rfl
@[simp] theorem consumeLatch_cmdLatch : (s.consumeLatch).cmdLatch = s.cmdLatch := rfl
@[simp] theorem consumeLatch_cmdPending : (s.consumeLatch).cmdPending = false := rfl
@[simp] theorem consumeLatch_cmdCrcFail : (s.consumeLatch).cmdCrcFail = false := rfl
@[simp] theorem consumeLatch_curIndex : (s.consumeLatch).curIndex = s.curIndex := rfl
@[simp] theorem consumeLatch_respReg : (s.consumeLatch).respReg = s.respReg := rfl
@[simp] theorem consumeLatch_respReady : (s.consumeLatch).respReady = s.respReady := rfl
@[simp] theorem consumeLatch_rxf : (s.consumeLatch).rxf = s.rxf := rfl
@[simp] theorem consumeLatch_txf : (s.consumeLatch).txf = s.txf := rfl
@[simp] theorem consumeLatch_xferFault : (s.consumeLatch).xferFault = s.xferFault := rfl
@[simp] theorem consumeLatch_rstReq : (s.consumeLatch).rstReq = s.rstReq := rfl
@[simp] theorem consumeLatch_tuningActive : (s.consumeLatch).tuningActive = s.tuningActive := rfl
@[simp] theorem consumeLatch_tuningMode : (s.consumeLatch).tuningMode = s.tuningMode := rfl
@[simp] theorem consumeLatch_tuningWidth : (s.consumeLatch).tuningWidth = s.tuningWidth := rfl
@[simp] theorem consumeLatch_intSt : (s.consumeLatch).intSt = s.intSt := rfl
@[simp] theorem consumeLatch_rintSt : (s.consumeLatch).rintSt = s.rintSt := rfl
@[simp] theorem consumeLatch_params : (s.consumeLatch).params = s.params := rfl
@[simp] theorem consumeLatch_inputs : (s.consumeLatch).inputs = s.inputs := rfl
@[simp] theorem consumeLatch_results : (s.consumeLatch).results = s.results := rfl
@[simp] theorem consumeLatch_hostFrames : (s.consumeLatch).hostFrames = s.hostFrames := rfl
@[simp] theorem consumeLatch_hostPopped : (s.consumeLatch).hostPopped = s.hostPopped := rfl
@[simp] theorem consumeLatch_hostPushed : (s.consumeLatch).hostPushed = s.hostPushed := rfl
@[simp] theorem consumeLatch_draws : (s.consumeLatch).draws = s.draws := rfl

/-! ### raiseTransport -/

@[simp] theorem raiseTransport_phase (e : TransportEvent) :
    (s.raiseTransport e).phase = s.phase := rfl
@[simp] theorem raiseTransport_port (e : TransportEvent) : (s.raiseTransport e).port = s.port := rfl
@[simp] theorem raiseTransport_busReady (e : TransportEvent) :
    (s.raiseTransport e).busReady = s.busReady := rfl
@[simp] theorem raiseTransport_cmdLatch (e : TransportEvent) :
    (s.raiseTransport e).cmdLatch = s.cmdLatch := rfl
@[simp] theorem raiseTransport_cmdPending (e : TransportEvent) :
    (s.raiseTransport e).cmdPending = s.cmdPending := rfl
@[simp] theorem raiseTransport_cmdCrcFail (e : TransportEvent) :
    (s.raiseTransport e).cmdCrcFail = s.cmdCrcFail := rfl
@[simp] theorem raiseTransport_curIndex (e : TransportEvent) :
    (s.raiseTransport e).curIndex = s.curIndex := rfl
@[simp] theorem raiseTransport_respReg (e : TransportEvent) :
    (s.raiseTransport e).respReg = s.respReg := rfl
@[simp] theorem raiseTransport_respReady (e : TransportEvent) :
    (s.raiseTransport e).respReady = s.respReady := rfl
@[simp] theorem raiseTransport_rxf (e : TransportEvent) : (s.raiseTransport e).rxf = s.rxf := rfl
@[simp] theorem raiseTransport_txf (e : TransportEvent) : (s.raiseTransport e).txf = s.txf := rfl
@[simp] theorem raiseTransport_xferFault (e : TransportEvent) :
    (s.raiseTransport e).xferFault = s.xferFault := rfl
@[simp] theorem raiseTransport_rstReq (e : TransportEvent) :
    (s.raiseTransport e).rstReq = s.rstReq := rfl
@[simp] theorem raiseTransport_tuningActive (e : TransportEvent) :
    (s.raiseTransport e).tuningActive = s.tuningActive := rfl
@[simp] theorem raiseTransport_tuningMode (e : TransportEvent) :
    (s.raiseTransport e).tuningMode = s.tuningMode := rfl
@[simp] theorem raiseTransport_tuningWidth (e : TransportEvent) :
    (s.raiseTransport e).tuningWidth = s.tuningWidth := rfl
@[simp] theorem raiseTransport_intSt (e : TransportEvent) :
    (s.raiseTransport e).intSt = setBit s.intSt (transportBit e) := rfl
@[simp] theorem raiseTransport_rintSt (e : TransportEvent) :
    (s.raiseTransport e).rintSt = s.rintSt := rfl
@[simp] theorem raiseTransport_params (e : TransportEvent) :
    (s.raiseTransport e).params = s.params := rfl
@[simp] theorem raiseTransport_inputs (e : TransportEvent) :
    (s.raiseTransport e).inputs = s.inputs := rfl
@[simp] theorem raiseTransport_results (e : TransportEvent) :
    (s.raiseTransport e).results = s.results := rfl
@[simp] theorem raiseTransport_hostFrames (e : TransportEvent) :
    (s.raiseTransport e).hostFrames = s.hostFrames := rfl
@[simp] theorem raiseTransport_hostPopped (e : TransportEvent) :
    (s.raiseTransport e).hostPopped = s.hostPopped := rfl
@[simp] theorem raiseTransport_hostPushed (e : TransportEvent) :
    (s.raiseTransport e).hostPushed = s.hostPushed := rfl
@[simp] theorem raiseTransport_draws (e : TransportEvent) :
    (s.raiseTransport e).draws = s.draws := rfl

/-! ### raiseResponse -/

@[simp] theorem raiseResponse_phase (e : ResponseEvent) : (s.raiseResponse e).phase = s.phase := rfl
@[simp] theorem raiseResponse_port (e : ResponseEvent) : (s.raiseResponse e).port = s.port := rfl
@[simp] theorem raiseResponse_busReady (e : ResponseEvent) :
    (s.raiseResponse e).busReady = s.busReady := rfl
@[simp] theorem raiseResponse_cmdLatch (e : ResponseEvent) :
    (s.raiseResponse e).cmdLatch = s.cmdLatch := rfl
@[simp] theorem raiseResponse_cmdPending (e : ResponseEvent) :
    (s.raiseResponse e).cmdPending = s.cmdPending := rfl
@[simp] theorem raiseResponse_cmdCrcFail (e : ResponseEvent) :
    (s.raiseResponse e).cmdCrcFail = s.cmdCrcFail := rfl
@[simp] theorem raiseResponse_curIndex (e : ResponseEvent) :
    (s.raiseResponse e).curIndex = s.curIndex := rfl
@[simp] theorem raiseResponse_respReg (e : ResponseEvent) :
    (s.raiseResponse e).respReg = s.respReg := rfl
@[simp] theorem raiseResponse_respReady (e : ResponseEvent) :
    (s.raiseResponse e).respReady = s.respReady := rfl
@[simp] theorem raiseResponse_rxf (e : ResponseEvent) : (s.raiseResponse e).rxf = s.rxf := rfl
@[simp] theorem raiseResponse_txf (e : ResponseEvent) : (s.raiseResponse e).txf = s.txf := rfl
@[simp] theorem raiseResponse_xferFault (e : ResponseEvent) :
    (s.raiseResponse e).xferFault = s.xferFault := rfl
@[simp] theorem raiseResponse_rstReq (e : ResponseEvent) :
    (s.raiseResponse e).rstReq = s.rstReq := rfl
@[simp] theorem raiseResponse_tuningActive (e : ResponseEvent) :
    (s.raiseResponse e).tuningActive = s.tuningActive := rfl
@[simp] theorem raiseResponse_tuningMode (e : ResponseEvent) :
    (s.raiseResponse e).tuningMode = s.tuningMode := rfl
@[simp] theorem raiseResponse_tuningWidth (e : ResponseEvent) :
    (s.raiseResponse e).tuningWidth = s.tuningWidth := rfl
@[simp] theorem raiseResponse_intSt (e : ResponseEvent) : (s.raiseResponse e).intSt = s.intSt := rfl
@[simp] theorem raiseResponse_rintSt (e : ResponseEvent) :
    (s.raiseResponse e).rintSt = setBit s.rintSt (responseBit e) := rfl
@[simp] theorem raiseResponse_params (e : ResponseEvent) :
    (s.raiseResponse e).params = s.params := rfl
@[simp] theorem raiseResponse_inputs (e : ResponseEvent) :
    (s.raiseResponse e).inputs = s.inputs := rfl
@[simp] theorem raiseResponse_results (e : ResponseEvent) :
    (s.raiseResponse e).results = s.results := rfl
@[simp] theorem raiseResponse_hostFrames (e : ResponseEvent) :
    (s.raiseResponse e).hostFrames = s.hostFrames := rfl
@[simp] theorem raiseResponse_hostPopped (e : ResponseEvent) :
    (s.raiseResponse e).hostPopped = s.hostPopped := rfl
@[simp] theorem raiseResponse_hostPushed (e : ResponseEvent) :
    (s.raiseResponse e).hostPushed = s.hostPushed := rfl
@[simp] theorem raiseResponse_draws (e : ResponseEvent) : (s.raiseResponse e).draws = s.draws := rfl

/-! ### resetCodec -/

@[simp] theorem resetCodec_phase : (s.resetCodec).phase = s.phase := rfl
@[simp] theorem resetCodec_port : (s.resetCodec).port = s.port := rfl
@[simp] theorem resetCodec_busReady : (s.resetCodec).busReady = s.busReady := rfl
@[simp] theorem resetCodec_cmdLatch : (s.resetCodec).cmdLatch = 0 := rfl
@[simp] theorem resetCodec_cmdPending : (s.resetCodec).cmdPending = false := rfl
@[simp] theorem resetCodec_cmdCrcFail : (s.resetCodec).cmdCrcFail = false := rfl
@[simp] theorem resetCodec_curIndex : (s.resetCodec).curIndex = 0 := rfl
@[simp] theorem resetCodec_respReg : (s.resetCodec).respReg = 0 := rfl
@[simp] theorem resetCodec_respReady : (s.resetCodec).respReady = false := rfl
@[simp] theorem resetCodec_rxf : (s.resetCodec).rxf = s.rxf := rfl
@[simp] theorem resetCodec_txf : (s.resetCodec).txf = s.txf := rfl
@[simp] theorem resetCodec_xferFault : (s.resetCodec).xferFault = s.xferFault := rfl
@[simp] theorem resetCodec_rstReq : (s.resetCodec).rstReq = s.rstReq := rfl
@[simp] theorem resetCodec_tuningActive : (s.resetCodec).tuningActive = s.tuningActive := rfl
@[simp] theorem resetCodec_tuningMode : (s.resetCodec).tuningMode = s.tuningMode := rfl
@[simp] theorem resetCodec_tuningWidth : (s.resetCodec).tuningWidth = s.tuningWidth := rfl
@[simp] theorem resetCodec_intSt : (s.resetCodec).intSt = s.intSt := rfl
@[simp] theorem resetCodec_rintSt : (s.resetCodec).rintSt = s.rintSt := rfl
@[simp] theorem resetCodec_params : (s.resetCodec).params = s.params := rfl
@[simp] theorem resetCodec_inputs : (s.resetCodec).inputs = s.inputs := rfl
@[simp] theorem resetCodec_results : (s.resetCodec).results = s.results := rfl
@[simp] theorem resetCodec_hostFrames : (s.resetCodec).hostFrames = s.hostFrames := rfl
@[simp] theorem resetCodec_hostPopped : (s.resetCodec).hostPopped = s.hostPopped := rfl
@[simp] theorem resetCodec_hostPushed : (s.resetCodec).hostPushed = s.hostPushed := rfl
@[simp] theorem resetCodec_draws : (s.resetCodec).draws = s.draws := rfl

/-! ### resetData -/

@[simp] theorem resetData_phase : (s.resetData).phase = s.phase := rfl
@[simp] theorem resetData_port : (s.resetData).port = s.port := rfl
@[simp] theorem resetData_busReady : (s.resetData).busReady = s.busReady := rfl
@[simp] theorem resetData_cmdLatch : (s.resetData).cmdLatch = s.cmdLatch := rfl
@[simp] theorem resetData_cmdPending : (s.resetData).cmdPending = s.cmdPending := rfl
@[simp] theorem resetData_cmdCrcFail : (s.resetData).cmdCrcFail = s.cmdCrcFail := rfl
@[simp] theorem resetData_curIndex : (s.resetData).curIndex = s.curIndex := rfl
@[simp] theorem resetData_respReg : (s.resetData).respReg = s.respReg := rfl
@[simp] theorem resetData_respReady : (s.resetData).respReady = s.respReady := rfl
@[simp] theorem resetData_rxf : (s.resetData).rxf = [] := rfl
@[simp] theorem resetData_txf : (s.resetData).txf = [] := rfl
@[simp] theorem resetData_xferFault : (s.resetData).xferFault = false := rfl
@[simp] theorem resetData_rstReq : (s.resetData).rstReq = s.rstReq := rfl
@[simp] theorem resetData_tuningActive : (s.resetData).tuningActive = false := rfl
@[simp] theorem resetData_tuningMode : (s.resetData).tuningMode = s.tuningMode := rfl
@[simp] theorem resetData_tuningWidth : (s.resetData).tuningWidth = s.tuningWidth := rfl
@[simp] theorem resetData_intSt : (s.resetData).intSt = s.intSt := rfl
@[simp] theorem resetData_rintSt : (s.resetData).rintSt = s.rintSt := rfl
@[simp] theorem resetData_params : (s.resetData).params = s.params := rfl
@[simp] theorem resetData_inputs : (s.resetData).inputs = s.inputs := rfl
@[simp] theorem resetData_results : (s.resetData).results = s.results := rfl
@[simp] theorem resetData_hostFrames : (s.resetData).hostFrames = s.hostFrames := rfl
@[simp] theorem resetData_hostPopped : (s.resetData).hostPopped = s.hostPopped := rfl
@[simp] theorem resetData_hostPushed : (s.resetData).hostPushed = s.hostPushed := rfl
@[simp] theorem resetData_draws : (s.resetData).draws = s.draws := rfl

/-! ### initialize -/

@[simp] theorem initialize_phase : (s.initialize).phase = .standby := rfl
@[simp] theorem initialize_port : (s.initialize).port = s.port := rfl
@[simp] theorem initialize_busReady : (s.initialize).busReady = false := rfl
@[simp] theorem initialize_cmdLatch : (s.initialize).cmdLatch = 0 := rfl
@[simp] theorem initialize_cmdPending : (s.initialize).cmdPending = false := rfl
@[simp] theorem initialize_cmdCrcFail : (s.initialize).cmdCrcFail = false := rfl
@[simp] theorem initialize_curIndex : (s.initialize).curIndex = 0 := rfl
@[simp] theorem initialize_respReg : (s.initialize).respReg = 0 := rfl
@[simp] theorem initialize_respReady : (s.initialize).respReady = false := rfl
@[simp] theorem initialize_rxf : (s.initialize).rxf = [] := rfl
@[simp] theorem initialize_txf : (s.initialize).txf = [] := rfl
@[simp] theorem initialize_xferFault : (s.initialize).xferFault = false := rfl
@[simp] theorem initialize_rstReq : (s.initialize).rstReq = .none := rfl
@[simp] theorem initialize_tuningActive : (s.initialize).tuningActive = false := rfl
@[simp] theorem initialize_tuningMode : (s.initialize).tuningMode = s.tuningMode := rfl
@[simp] theorem initialize_tuningWidth : (s.initialize).tuningWidth = s.tuningWidth := rfl
@[simp] theorem initialize_intSt : (s.initialize).intSt = 0 := rfl
@[simp] theorem initialize_rintSt : (s.initialize).rintSt = 0 := rfl
@[simp] theorem initialize_params : (s.initialize).params = s.params := rfl
@[simp] theorem initialize_inputs : (s.initialize).inputs = s.inputs := rfl
@[simp] theorem initialize_results : (s.initialize).results = s.results := rfl
@[simp] theorem initialize_hostFrames : (s.initialize).hostFrames = s.hostFrames := rfl
@[simp] theorem initialize_hostPopped : (s.initialize).hostPopped = s.hostPopped := rfl
@[simp] theorem initialize_hostPushed : (s.initialize).hostPushed = s.hostPushed := rfl
@[simp] theorem initialize_draws : (s.initialize).draws = s.draws := rfl

/-! ### resetAll -/

@[simp] theorem resetAll_phase : (s.resetAll).phase = .uninitialized := rfl
@[simp] theorem resetAll_port : (s.resetAll).port = s.port := rfl
@[simp] theorem resetAll_busReady : (s.resetAll).busReady = false := rfl
@[simp] theorem resetAll_cmdLatch : (s.resetAll).cmdLatch = 0 := rfl
@[simp] theorem resetAll_cmdPending : (s.resetAll).cmdPending = false := rfl
@[simp] theorem resetAll_cmdCrcFail : (s.resetAll).cmdCrcFail = false := rfl
@[simp] theorem resetAll_curIndex : (s.resetAll).curIndex = 0 := rfl
@[simp] theorem resetAll_respReg : (s.resetAll).respReg = 0 := rfl
@[simp] theorem resetAll_respReady : (s.resetAll).respReady = false := rfl
@[simp] theorem resetAll_rxf : (s.resetAll).rxf = [] := rfl
@[simp] theorem resetAll_txf : (s.resetAll).txf = [] := rfl
@[simp] theorem resetAll_xferFault : (s.resetAll).xferFault = false := rfl
@[simp] theorem resetAll_rstReq : (s.resetAll).rstReq = .none := rfl
@[simp] theorem resetAll_tuningActive : (s.resetAll).tuningActive = false := rfl
@[simp] theorem resetAll_tuningMode : (s.resetAll).tuningMode = Config.anyTuningMode s.draws := rfl
@[simp] theorem resetAll_tuningWidth :
    (s.resetAll).tuningWidth = Config.anyTuningWidth s.draws := rfl
@[simp] theorem resetAll_intSt : (s.resetAll).intSt = Config.anyIntSt s.draws := rfl
@[simp] theorem resetAll_rintSt : (s.resetAll).rintSt = Config.anyRintSt s.draws := rfl
@[simp] theorem resetAll_params : (s.resetAll).params = s.params := rfl
@[simp] theorem resetAll_inputs : (s.resetAll).inputs = s.inputs := rfl
@[simp] theorem resetAll_results : (s.resetAll).results = s.results := rfl
@[simp] theorem resetAll_hostFrames : (s.resetAll).hostFrames = s.hostFrames := rfl
@[simp] theorem resetAll_hostPopped : (s.resetAll).hostPopped = s.hostPopped := rfl
@[simp] theorem resetAll_hostPushed : (s.resetAll).hostPushed = s.hostPushed := rfl
@[simp] theorem resetAll_draws : (s.resetAll).draws = s.draws + 1 := rfl

/-! ### resetCmdLine -/

@[simp] theorem resetCmdLine_phase : (s.resetCmdLine).phase = phaseAfterReset .cmd s.phase := rfl
@[simp] theorem resetCmdLine_port : (s.resetCmdLine).port = s.port := rfl
@[simp] theorem resetCmdLine_busReady : (s.resetCmdLine).busReady = s.busReady := rfl
@[simp] theorem resetCmdLine_cmdLatch : (s.resetCmdLine).cmdLatch = 0 := rfl
@[simp] theorem resetCmdLine_cmdPending : (s.resetCmdLine).cmdPending = false := rfl
@[simp] theorem resetCmdLine_cmdCrcFail : (s.resetCmdLine).cmdCrcFail = false := rfl
@[simp] theorem resetCmdLine_curIndex : (s.resetCmdLine).curIndex = 0 := rfl
@[simp] theorem resetCmdLine_respReg : (s.resetCmdLine).respReg = 0 := rfl
@[simp] theorem resetCmdLine_respReady : (s.resetCmdLine).respReady = false := rfl
@[simp] theorem resetCmdLine_rxf : (s.resetCmdLine).rxf = s.rxf := rfl
@[simp] theorem resetCmdLine_txf : (s.resetCmdLine).txf = s.txf := rfl
@[simp] theorem resetCmdLine_xferFault : (s.resetCmdLine).xferFault = s.xferFault := rfl
@[simp] theorem resetCmdLine_rstReq : (s.resetCmdLine).rstReq = s.rstReq.set false .cmd := rfl
@[simp] theorem resetCmdLine_tuningActive : (s.resetCmdLine).tuningActive = s.tuningActive := rfl
@[simp] theorem resetCmdLine_tuningMode : (s.resetCmdLine).tuningMode = s.tuningMode := rfl
@[simp] theorem resetCmdLine_tuningWidth : (s.resetCmdLine).tuningWidth = s.tuningWidth := rfl
@[simp] theorem resetCmdLine_intSt :
    (s.resetCmdLine).intSt = setBit s.intSt (transportBit .resetDone) := rfl
@[simp] theorem resetCmdLine_rintSt : (s.resetCmdLine).rintSt = s.rintSt := rfl
@[simp] theorem resetCmdLine_params : (s.resetCmdLine).params = s.params := rfl
@[simp] theorem resetCmdLine_inputs : (s.resetCmdLine).inputs = s.inputs := rfl
@[simp] theorem resetCmdLine_results : (s.resetCmdLine).results = s.results := rfl
@[simp] theorem resetCmdLine_hostFrames : (s.resetCmdLine).hostFrames = s.hostFrames := rfl
@[simp] theorem resetCmdLine_hostPopped : (s.resetCmdLine).hostPopped = s.hostPopped := rfl
@[simp] theorem resetCmdLine_hostPushed : (s.resetCmdLine).hostPushed = s.hostPushed := rfl
@[simp] theorem resetCmdLine_draws : (s.resetCmdLine).draws = s.draws := rfl

/-! ### resetDataLine -/

@[simp] theorem resetDataLine_phase : (s.resetDataLine).phase = phaseAfterReset .data s.phase := rfl
@[simp] theorem resetDataLine_port : (s.resetDataLine).port = s.port := rfl
@[simp] theorem resetDataLine_busReady : (s.resetDataLine).busReady = s.busReady := rfl
@[simp] theorem resetDataLine_cmdLatch : (s.resetDataLine).cmdLatch = s.cmdLatch := rfl
@[simp] theorem resetDataLine_cmdPending : (s.resetDataLine).cmdPending = s.cmdPending := rfl
@[simp] theorem resetDataLine_cmdCrcFail : (s.resetDataLine).cmdCrcFail = s.cmdCrcFail := rfl
@[simp] theorem resetDataLine_curIndex : (s.resetDataLine).curIndex = s.curIndex := rfl
@[simp] theorem resetDataLine_respReg : (s.resetDataLine).respReg = s.respReg := rfl
@[simp] theorem resetDataLine_respReady : (s.resetDataLine).respReady = s.respReady := rfl
@[simp] theorem resetDataLine_rxf : (s.resetDataLine).rxf = [] := rfl
@[simp] theorem resetDataLine_txf : (s.resetDataLine).txf = [] := rfl
@[simp] theorem resetDataLine_xferFault : (s.resetDataLine).xferFault = false := rfl
@[simp] theorem resetDataLine_rstReq : (s.resetDataLine).rstReq = s.rstReq.set false .data := rfl
@[simp] theorem resetDataLine_tuningActive : (s.resetDataLine).tuningActive = false := rfl
@[simp] theorem resetDataLine_tuningMode : (s.resetDataLine).tuningMode = s.tuningMode := rfl
@[simp] theorem resetDataLine_tuningWidth : (s.resetDataLine).tuningWidth = s.tuningWidth := rfl
@[simp] theorem resetDataLine_intSt :
    (s.resetDataLine).intSt = setBit s.intSt (transportBit .resetDone) := rfl
@[simp] theorem resetDataLine_rintSt : (s.resetDataLine).rintSt = s.rintSt := rfl
@[simp] theorem resetDataLine_params : (s.resetDataLine).params = s.params := rfl
@[simp] theorem resetDataLine_inputs : (s.resetDataLine).inputs = s.inputs := rfl
@[simp] theorem resetDataLine_results : (s.resetDataLine).results = s.results := rfl
@[simp] theorem resetDataLine_hostFrames : (s.resetDataLine).hostFrames = s.hostFrames := rfl
@[simp] theorem resetDataLine_hostPopped : (s.resetDataLine).hostPopped = s.hostPopped := rfl
@[simp] theorem resetDataLine_hostPushed : (s.resetDataLine).hostPushed = s.hostPushed := rfl
@[simp] theorem resetDataLine_draws : (s.resetDataLine).draws = s.draws := rfl

end Sys2Proof.Machine.State
end

