-- ==== Sys2Proof/Laws/Ops.lean ====
section
/-! SUPPORT. What each shared operation can do, said once (Machine/Operands, Flags, Ops): the idle
port, the guards' phase sets, the operand codes, the interrupt bits, the FIFOs, the reset lines. -/

namespace Sys2Proof.Machine

/-! ## The port -/

@[simp] theorem Port.isIdle_iff (p : Port) : p.isIdle = true ↔ p = .idle := by
  cases p <;> simp [Port.isIdle]

@[simp] theorem Port.isIdle_false_iff (p : Port) : p.isIdle = false ↔ p ≠ .idle := by
  cases p <;> simp [Port.isIdle]

@[simp] theorem Port.tick_idle : Port.idle.tick = .idle := rfl

@[simp] theorem Port.tick_eq_idle_iff (p : Port) : p.tick = .idle ↔ p = .idle := by
  cases p <;> simp [Port.tick]

/-- The issue of an operation on an idle port is its step. -/
theorem onIdlePort_of_idle {s t : State} (h : s.port = .idle) : onIdlePort s t = .next t := by
  simp [onIdlePort, h]

/-- Everything `onIdlePort` can do when it answers a next state. -/
theorem onIdlePort_next_iff {s t u : State} :
    onIdlePort s t = .next u ↔ s.port = .idle ∧ u = t := by
  by_cases h : s.port = .idle
  · simp [onIdlePort, h, eq_comm (a := t)]
  · simp [onIdlePort, h]

theorem onIdlePort_not_fault {s t : State} {f : Fault} : onIdlePort s t ≠ .fault f := by
  unfold onIdlePort
  split <;> simp

theorem onIdlePort_of_busy {s t : State} (h : s.port ≠ .idle) :
    onIdlePort s t = .refused .operationInFlight := by
  simp [onIdlePort, h]

/-- Completing frees the port and adds the result. -/
theorem State.complete_eq_answers (s : State) (r : Result) (buf : List Byte) :
    s.complete r buf = ({ s with port := .idle }).answers r buf := rfl

/-- R177: a fault frees the port, enters Error and adds the error; nothing else changes. -/
theorem State.enterError_eq_answers (s : State) (e : Err) (buf : List Byte) :
    s.enterError e buf = ({ s with port := .idle, phase := .error }).answers (.err e) buf := rfl

/-- On an idle port completing adds the result and changes nothing else. -/
theorem State.complete_of_idle {s : State} (h : s.port = .idle) (r : Result) (buf : List Byte) :
    s.complete r buf = s.answers r buf := by
  cases s; simp_all [State.complete, State.answers]

theorem State.misuse_of_idle {s : State} (h : s.port = .idle) (buf : List Byte) :
    s.misuse buf = s.answers (.err .general) buf :=
  State.complete_of_idle h _ _

/-! ## Phases -/

theorem Phase.operational_iff (p : Phase) :
    p.operational = true ↔ p ∈ [.standby, .commandPending, .responseReady, .dataTransfer] := by
  cases p <;> simp [Phase.operational]

theorem Phase.initialized_iff (p : Phase) : p.initialized = true ↔ p ≠ .uninitialized := by
  cases p <;> simp [Phase.initialized]

theorem initLegal_iff (p : Phase) : initLegal p = true ↔ p ∈ [.uninitialized, .error] := by
  cases p <;> simp [initLegal]

/-- R156: what line Cmd does to the phase. -/
theorem phaseAfterReset_cmd (p : Phase) : phaseAfterReset .cmd p =
    if p ∈ [.commandPending, .responseReady, .error] then .standby else p := by
  cases p <;> simp [phaseAfterReset]

/-- R156: what line Data does to the phase. -/
theorem phaseAfterReset_data (p : Phase) : phaseAfterReset .data p =
    if p ∈ [.dataTransfer, .error] then .standby else p := by
  cases p <;> simp [phaseAfterReset]

/-! ## Reset requests -/

@[simp] theorem ResetRequests.get_none (r : ResetLine) : ResetRequests.none.get r = false := by
  cases r <;> rfl

@[simp] theorem ResetRequests.get_allFalse (r : ResetLine) :
    (⟨false, false, false⟩ : ResetRequests).get r = false := by
  cases r <;> rfl

@[simp] theorem ResetRequests.get_set (q : ResetRequests) (b : Bool) (r r' : ResetLine) :
    (q.set b r).get r' = if r' = r then b else q.get r' := by
  cases r <;> cases r' <;> rfl

/-! ## Operand codes (R78 to R81, R83) -/

theorem fifoStatusOf_eq_none_iff (a : Word) : fifoStatusOf a = none ↔ 1 < a.toNat := by
  unfold fifoStatusOf
  split
  · simp_all
  · split <;> simp_all <;> bv_omega

theorem resetLineOf_eq_none_iff (a : Word) : resetLineOf a = none ↔ 2 < a.toNat := by
  unfold resetLineOf
  split
  · simp_all
  · split
    · simp_all
    · split <;> simp_all <;> bv_omega

theorem tuningModeOf_eq_none_iff (a : Word) : tuningModeOf a = none ↔ 2 < a.toNat := by
  unfold tuningModeOf
  split
  · simp_all
  · split
    · simp_all
    · split <;> simp_all <;> bv_omega

theorem tuningWidthOf_eq_none_iff (b : Word) : tuningWidthOf b = none ↔ 1 < b.toNat := by
  unfold tuningWidthOf
  split
  · simp_all
  · split <;> simp_all <;> bv_omega

/-! ## Interrupt bits (R26 to R28) -/

/-- Setting a bit sets that bit and leaves the others. -/
theorem setBit_getLsbD (v : Word) (k j : Nat) (hk : k < 32) :
    (setBit v k).getLsbD j = (v.getLsbD j || decide (j = k)) := by
  unfold setBit
  by_cases h : j = k
  · subst h; simp [hk]
  · simp only [BitVec.getLsbD_or, BitVec.getLsbD_shiftLeft, h, decide_false, Bool.or_false]
    by_cases hlt : j < k
    · simp [hlt]
    · have : j - k ≠ 0 := by omega
      simp [this]

theorem transportBit_lt (e : TransportEvent) : transportBit e < 32 := by cases e <;> decide

theorem responseBit_lt (e : ResponseEvent) : responseBit e < 32 := by cases e <;> decide

/-! ## The FIFOs and the caller buffer (R21, R22, R41) -/

/-- A put into a FIFO with room keeps the capacity bound (R68 (a)). -/
theorem fifoPut_wf {depth : Nat} {q : List Byte} (b : Byte) (h : q.length < depth) :
    fifoWf depth (fifoPut q b) = true := by
  simp [fifoWf, fifoPut]; omega

/-- A take from the head keeps the capacity bound. -/
theorem fifo_tail_wf {depth : Nat} {b : Byte} {q : List Byte} (h : fifoWf depth (b :: q) = true) :
    fifoWf depth q = true := by
  simp [fifoWf] at *; omega

theorem bufWrite_eq_some_iff {buf buf' : List Byte} {i : Nat} {b : Byte} :
    bufWrite buf i b = some buf' ↔ i < buf.length ∧ buf' = buf.set i b := by
  by_cases h : i < buf.length
  · simp [bufWrite, h, eq_comm (a := buf.set i b)]
  · simp [bufWrite, h]

theorem bufRead_eq_some_iff {buf : List Byte} {i : Nat} {b : Byte} :
    bufRead buf i = some b ↔ ∃ h : i < buf.length, buf[i] = b := by
  simp [bufRead, List.getElem?_eq_some_iff]

/-! ## Deadlines (R68) -/

@[simp] theorem expired_iff (timeoutUs : Word) (elapsed : Nat) :
    expired timeoutUs elapsed = true ↔ timeoutUs.toNat ≤ elapsed := by
  simp [expired]

@[simp] theorem cfgExpired_iff (tCfgUs : Option Nat) (elapsed : Nat) :
    cfgExpired tCfgUs elapsed = true ↔ ∃ t, tCfgUs = some t ∧ t ≤ elapsed := by
  cases tCfgUs <;> simp [cfgExpired]

@[simp] theorem cfgExpired_none (elapsed : Nat) : cfgExpired none elapsed = false := rfl

/-! ## Derived signals (R29, R30) -/

theorem State.busy_iff (s : State) :
    s.busy = true ↔ s.respReady = true ∨ s.tuningActive = true ∨ 0 < s.txf.length := by
  simp only [State.busy, Bool.or_eq_true, decide_eq_true_eq, or_assoc]

theorem State.wrReady_iff (s : State) : s.wrReady = true ↔ s.txf.length < s.params.fifoDepth := by
  simp [State.wrReady]

theorem State.rxRoom_iff (s : State) : s.rxRoom = true ↔ s.rxf.length < s.params.fifoDepth := by
  simp [State.rxRoom]

theorem State.latchArmed_iff (s : State) : s.latchArmed = true ↔
    s.phase = .standby ∧ s.cmdPending = false ∧ s.respReady = false := by
  simp [State.latchArmed, and_assoc]

theorem State.pumpLegal_iff (s : State) :
    s.pumpLegal = true ↔ s.phase = .dataTransfer ∧ s.busReady = true := by
  simp [State.pumpLegal]

/-! ## Frames (R61 to R64) -/

/-- What latching writes, field by field (R150). -/
theorem State.latch_eq (s : State) (f : Frame) : s.latch f =
    { s with cmdLatch := f, cmdPending := true, cmdCrcFail := crcBad f,
             rintSt := if crcBad f then setBit (setBit s.rintSt 0) 1 else setBit s.rintSt 0 } := by
  unfold State.latch
  cases h : crcBad f <;> simp [State.raiseResponse, responseBit]

end Sys2Proof.Machine
end

