-- ==== Sys2Proof/Laws/Crc.lean ====
section
/-! SUPPORT. One round of the CRC (R66): it is linear over GF(2), and a round that feeds back subtracts
the low terms of the generator. -/

namespace Sys2Proof.Machine

/-- A round as shift plus conditional feedback, with the feedback bit named. -/
theorem crcRound_eq (c : Crc7) (bit : Bool) : crcRound c bit =
    (c <<< 1) ^^^ (if bit ^^ c.getLsbD 6 then 0x09#7 else 0#7) := by
  unfold crcRound
  split <;> simp_all

/-- R67 (b), one round. -/
theorem crcRound_xor (c d : Crc7) (a b : Bool) :
    crcRound (c ^^^ d) (a ^^ b) = crcRound c a ^^^ crcRound d b := by
  simp only [crcRound_eq, BitVec.shiftLeft_xor_distrib, BitVec.getLsbD_xor]
  generalize c <<< 1 = x, d <<< 1 = y
  cases a <;> cases b <;> cases c.getLsbD 6 <;> cases d.getLsbD 6 <;>
    simp [BitVec.xor_assoc] <;>
    exact BitVec.xor_comm _ _

/-- The rounds from bit `k - 1` down, started on a register, take one bit at a time. -/
theorem crcRounds_succ (h : BitVec 40) (k : Nat) (c : Crc7) :
    crcRounds h (k + 1) c = crcRounds h k (crcRound c (h.getLsbD k)) := rfl

end Sys2Proof.Machine
end

