-- ==== Sys2Proof/Laws/Decode.lean ====
section
/-! SUPPORT. The bits of concatenations, and the fields of the two frame formats (R61 to R64). -/

namespace Sys2Proof

/-! ## Bits of a concatenation -/

theorem getLsbD_append_low {m n : Nat} (x : BitVec m) (y : BitVec n) {k : Nat} (h : k < n) :
    (x ++ y).getLsbD k = y.getLsbD k := by
  rw [BitVec.getLsbD_append, if_pos h]

theorem getLsbD_append_high {m n : Nat} (x : BitVec m) (y : BitVec n) {k : Nat} (h : n ≤ k) :
    (x ++ y).getLsbD k = x.getLsbD (k - n) := by
  rw [BitVec.getLsbD_append, if_neg (by omega)]

/-! ## Fields of a frame built from its fields -/

/-- Bits 7:1 of a closed frame are its CRC. -/
@[simp] theorem frameCrc_closeFrame (h : BitVec 40) (c : Crc7) :
    frameCrc (closeFrame h c) = c := by
  unfold frameCrc closeFrame
  refine BitVec.eq_of_getLsbD_eq fun k hk => ?_
  rw [BitVec.getLsbD_extractLsb', getLsbD_append_high _ _ (by omega),
    getLsbD_append_low _ _ (by omega)]
  simp [hk]

/-- Bits 47:8 of a closed frame are its head. -/
@[simp] theorem frameHead_closeFrame (h : BitVec 40) (c : Crc7) :
    frameHead (closeFrame h c) = h := by
  unfold frameHead closeFrame
  refine BitVec.eq_of_getLsbD_eq fun k hk => ?_
  rw [BitVec.getLsbD_extractLsb', getLsbD_append_high _ _ (by omega),
    getLsbD_append_high _ _ (by omega), show 8 + k - 1 - 7 = k by omega]
  simp [hk]

theorem closeFrame_getLsbD_zero (h : BitVec 40) (c : Crc7) :
    (closeFrame h c).getLsbD 0 = true := by
  unfold closeFrame
  rw [getLsbD_append_low _ _ (by omega)]; rfl

/-- Bits of a closed frame above the CRC are those of its head. -/
theorem closeFrame_getLsbD_high (h : BitVec 40) (c : Crc7) {k : Nat} (hk : 8 ≤ k) :
    (closeFrame h c).getLsbD k = h.getLsbD (k - 8) := by
  unfold closeFrame
  rw [getLsbD_append_high _ _ (by omega), getLsbD_append_high _ _ (by omega)]
  congr 1

/-- Bits 39:8 of a frame are its argument or payload. -/
@[simp] theorem frameArg_closeFrame (dir : Bool) (index : Index) (word : Word) (c : Crc7) :
    frameArg (closeFrame (headBits dir index word) c) = word := by
  unfold frameArg
  refine BitVec.eq_of_getLsbD_eq fun k hk => ?_
  rw [BitVec.getLsbD_extractLsb', closeFrame_getLsbD_high _ _ (by omega)]
  unfold headBits
  rw [getLsbD_append_low _ _ (by omega), show 8 + k - 8 = k by omega]
  simp [hk]

/-- Bits 45:40 of a frame are its index. -/
@[simp] theorem frameIndex_closeFrame (dir : Bool) (index : Index) (word : Word) (c : Crc7) :
    frameIndex (closeFrame (headBits dir index word) c) = index := by
  unfold frameIndex
  refine BitVec.eq_of_getLsbD_eq fun k hk => ?_
  rw [BitVec.getLsbD_extractLsb', closeFrame_getLsbD_high _ _ (by omega)]
  unfold headBits
  rw [getLsbD_append_high _ _ (by omega), getLsbD_append_low _ _ (by omega),
    show 40 + k - 8 - 32 = k by omega]
  simp [hk]

@[simp] theorem frameStartOk_closeFrame (dir : Bool) (index : Index) (word : Word) (c : Crc7) :
    frameStartOk (closeFrame (headBits dir index word) c) = true := by
  unfold frameStartOk
  rw [closeFrame_getLsbD_high _ _ (by omega)]
  unfold headBits
  rw [getLsbD_append_high _ _ (by omega), getLsbD_append_high _ _ (by omega),
    getLsbD_append_high _ _ (by omega)]
  rfl

@[simp] theorem frameDirOk_closeFrame (dir : Bool) (index : Index) (word : Word) (c : Crc7) :
    frameDirOk (closeFrame (headBits dir index word) c) = dir := by
  unfold frameDirOk
  rw [closeFrame_getLsbD_high _ _ (by omega)]
  unfold headBits
  rw [getLsbD_append_high _ _ (by omega), getLsbD_append_high _ _ (by omega),
    getLsbD_append_low _ _ (by omega)]
  cases dir <;> rfl

@[simp] theorem frameEndOk_closeFrame (h : BitVec 40) (c : Crc7) :
    frameEndOk (closeFrame h c) = true := closeFrame_getLsbD_zero h c

/-- A frame whose framing bits fit a format is rebuilt from its fields, bit for bit. -/
theorem closeFrame_fields (f : Frame) (dir : Bool) (hs : frameStartOk f = true)
    (hd : frameDirOk f = dir) (he : frameEndOk f = true) :
    closeFrame (headBits dir (frameIndex f) (frameArg f)) (frameCrc f) = f := by
  have hrange : ∀ k, k < 48 → k = 0 ∨ (1 ≤ k ∧ k < 8) ∨ (8 ≤ k ∧ k < 40) ∨ (40 ≤ k ∧ k < 46) ∨
      k = 46 ∨ k = 47 := by omega
  refine BitVec.eq_of_getLsbD_eq fun k hk => ?_
  rcases hrange k hk with rfl | h | h | h | rfl | rfl
  · rw [closeFrame_getLsbD_zero]; exact he.symm
  · have := congrArg (fun v => v.getLsbD (k - 1))
      (frameCrc_closeFrame (headBits dir (frameIndex f) (frameArg f)) (frameCrc f))
    simp only [frameCrc, BitVec.getLsbD_extractLsb', show 1 + (k - 1) = k by omega,
      show k - 1 < 7 by omega, decide_true, Bool.true_and] at this
    exact this
  · have := congrArg (fun v => v.getLsbD (k - 8))
      (frameArg_closeFrame dir (frameIndex f) (frameArg f) (frameCrc f))
    simp only [frameArg, BitVec.getLsbD_extractLsb', show 8 + (k - 8) = k by omega,
      show k - 8 < 32 by omega, decide_true, Bool.true_and] at this
    exact this
  · have := congrArg (fun v => v.getLsbD (k - 40))
      (frameIndex_closeFrame dir (frameIndex f) (frameArg f) (frameCrc f))
    simp only [frameIndex, BitVec.getLsbD_extractLsb', show 40 + (k - 40) = k by omega,
      show k - 40 < 6 by omega, decide_true, Bool.true_and] at this
    exact this
  · exact (frameDirOk_closeFrame ..).trans hd.symm
  · have h := frameStartOk_closeFrame dir (frameIndex f) (frameArg f) (frameCrc f)
    simp only [frameStartOk, Bool.not_eq_true'] at h hs
    rw [h, hs]

/-- Everything the frame decoder can answer: the row of the table whose frame `f` is. -/
theorem decodeFrame_eq_ok {f : Frame} {i : Instr} (h : decodeFrame f = .ok i) :
    (∃ index arg crc, i = .cmd48 index arg crc ∧ commandFrame index arg crc = f) ∨
    (∃ index payload crc, i = .rsp48 index payload crc ∧
      responseFrame index payload crc = f) := by
  unfold decodeFrame at h
  split at h
  · cases h
  · split at h
    · cases h
    · rename_i hs he
      simp only [Bool.not_eq_true', Bool.not_eq_false] at hs he
      split at h <;> rename_i hd <;> cases h
      · exact .inl ⟨_, _, _, rfl, closeFrame_fields f true hs hd he⟩
      · exact .inr ⟨_, _, _, rfl, closeFrame_fields f false hs (by simpa using hd) he⟩

/-! ## The operand of `write_response` (R74) -/

@[simp] theorem responseOperand_index (index : Index) (withCrc : Bool) :
    (responseOperand index withCrc).extractLsb' 0 6 = index := by
  unfold responseOperand
  refine BitVec.eq_of_getLsbD_eq fun k hk => ?_
  rw [BitVec.getLsbD_extractLsb', getLsbD_append_low _ _ (by omega)]
  simp [hk]

@[simp] theorem responseOperand_withCrc (index : Index) (withCrc : Bool) :
    (responseOperand index withCrc).getLsbD 8 = withCrc := by
  unfold responseOperand
  rw [getLsbD_append_high _ _ (by omega), getLsbD_append_high _ _ (by omega),
    getLsbD_append_low _ _ (by omega)]
  cases withCrc <;> rfl

/-! ## The bytes of a request (log 11) -/

@[simp] theorem wordOfBytes_wordBytes (w : Word) : wordOfBytes (wordBytes w) = w := by
  unfold wordOfBytes wordBytes
  refine BitVec.eq_of_getLsbD_eq fun k hk => ?_
  simp only [List.getElem?_cons_zero, List.getElem?_cons_succ, Option.getD_some]
  by_cases h1 : k < 8
  · rw [getLsbD_append_low _ _ h1]; simp [h1]
  · rw [getLsbD_append_high _ _ (by omega)]
    by_cases h2 : k < 16
    · rw [getLsbD_append_low _ _ (by omega)]
      simp only [BitVec.getLsbD_extractLsb', show 8 + (k - 8) = k by omega,
        show k - 8 < 8 by omega, decide_true, Bool.true_and]
    · rw [getLsbD_append_high _ _ (by omega)]
      by_cases h3 : k < 24
      · rw [getLsbD_append_low _ _ (by omega)]
        simp only [BitVec.getLsbD_extractLsb', show 16 + (k - 8 - 8) = k by omega,
          show k - 8 - 8 < 8 by omega, decide_true, Bool.true_and]
      · rw [getLsbD_append_high _ _ (by omega)]
        simp only [BitVec.getLsbD_extractLsb', show 24 + (k - 8 - 8 - 8) = k by omega,
          show k - 8 - 8 - 8 < 8 by omega, decide_true, Bool.true_and]

@[simp] theorem wordBytes_length (w : Word) : (wordBytes w).length = 4 := rfl

@[simp] theorem requestOfBytes_requestBytes (r : Request) :
    requestOfBytes (requestBytes r) = .ok r := by
  have ha : (wordBytes r.a ++ (wordBytes r.b ++ r.buf)).take 4 = wordBytes r.a := by
    rw [List.take_append_of_le_length (by simp)]; simp
  have hb : ((wordBytes r.a ++ (wordBytes r.b ++ r.buf)).drop 4).take 4 = wordBytes r.b := by
    rw [List.drop_append_of_le_length (by simp), List.drop_of_length_le (by simp), List.nil_append,
      List.take_append_of_le_length (by simp)]
    simp
  have hc : (wordBytes r.a ++ (wordBytes r.b ++ r.buf)).drop 8 = r.buf := by
    rw [← List.append_assoc, List.drop_append_of_le_length (by simp),
      List.drop_of_length_le (by simp), List.nil_append]
  simp only [requestBytes, requestOfBytes, List.append_assoc, ha, hb, hc, wordOfBytes_wordBytes]

/-- R40: six bytes, most significant first, give the frame back. -/
@[simp] theorem frameOfBytes_frameBytes (f : Frame) : frameOfBytes (frameBytes f) = .ok f := by
  show Except.ok (f.extractLsb' 40 8 ++ f.extractLsb' 32 8 ++ f.extractLsb' 24 8 ++
    f.extractLsb' 16 8 ++ f.extractLsb' 8 8 ++ f.extractLsb' 0 8 : BitVec 48) = _
  congr 1
  refine BitVec.eq_of_getLsbD_eq fun k hk => ?_
  by_cases h1 : k < 8
  · rw [getLsbD_append_low _ _ h1]; simp [h1]
  · rw [getLsbD_append_high _ _ (by omega)]
    by_cases h2 : k < 16
    · rw [getLsbD_append_low _ _ (by omega), BitVec.getLsbD_extractLsb',
        show 8 + (k - 8) = k by omega]; simp; omega
    · rw [getLsbD_append_high _ _ (by omega)]
      by_cases h3 : k < 24
      · rw [getLsbD_append_low _ _ (by omega), BitVec.getLsbD_extractLsb',
          show 16 + (k - 8 - 8) = k by omega]; simp; omega
      · rw [getLsbD_append_high _ _ (by omega)]
        by_cases h4 : k < 32
        · rw [getLsbD_append_low _ _ (by omega), BitVec.getLsbD_extractLsb',
            show 24 + (k - 8 - 8 - 8) = k by omega]; simp; omega
        · rw [getLsbD_append_high _ _ (by omega)]
          by_cases h5 : k < 40
          · rw [getLsbD_append_low _ _ (by omega), BitVec.getLsbD_extractLsb',
              show 32 + (k - 8 - 8 - 8 - 8) = k by omega]; simp; omega
          · rw [getLsbD_append_high _ _ (by omega), BitVec.getLsbD_extractLsb',
              show 40 + (k - 8 - 8 - 8 - 8 - 8) = k by omega]; simp; omega

/-- A packet is read back from its bytes. -/
@[simp] theorem packetOfBytes_bytes (p : Packet) : packetOfBytes p.channel p.bytes = .ok p := by
  cases p <;> simp [Packet.channel, Packet.bytes, packetOfBytes, Except.map]

end Sys2Proof
end

