-- ==== Sys2Proof/Laws/Step.lean ====
section
/-! SUPPORT. What one step can do: the frame a host sends, the driver's instructions, the input a step
takes, and the run of a list of inputs. -/

namespace Sys2Proof.Machine

/-! ## Frames from the host -/

/-- R150: whichever row its format is, or neither, a frame the host sends is latched or nothing. -/
theorem sendFrame_eq (f : Frame) (s : State) : sendFrame f s = hostSendCommand f s := by
  unfold sendFrame
  cases h : decodeFrame f with
  | error e => rfl
  | ok i =>
    rcases decodeFrame_eq_ok h with ⟨i, a, c, rfl, rfl⟩ | ⟨i, a, c, rfl, rfl⟩ <;> rfl

@[simp] theorem runEnv_sendCommand (f : Frame) (s : State) :
    runEnv (.sendCommand f) s = hostSendCommand f s := sendFrame_eq f s

/-- R85, R67: `cmd(i, a)` passes the CRC check. -/
@[simp] theorem crcBad_cmd (index : Index) (arg : Word) : crcBad (cmd index arg) = false := by
  simp [crcBad, cmd, commandFrame]

/-- R85, R63: `cmd(i, a)` is well-formed, and its Command value is `(i, a)` with the good CRC. -/
@[simp] theorem frameWellFormed_cmd (index : Index) (arg : Word) :
    frameWellFormed (cmd index arg) = true := by
  simp [frameWellFormed, cmd, commandFrame]

@[simp] theorem commandOf_cmd (index : Index) (arg : Word) :
    commandOf (cmd index arg) = ⟨index, arg, crc7 (headBits true index arg)⟩ := by
  simp [commandOf, cmd, commandFrame]

/-! ## The driver's instructions -/

/-- A request decodes to an instruction of the driver, never to a frame. -/
theorem isDriverInstr_decodeRequest (r : Request) : isDriverInstr (decodeRequest r) = true := by
  have h : isDriverInstr (decodeReserved r.opsel) = true := by
    unfold decodeReserved; repeat' split
    all_goals rfl
  unfold decodeRequest
  split <;> first | rfl | exact h

/-- The state a driver instruction answers on an idle port. -/
theorem exec_driver_next {i : Instr} {s t : State} (hd : isDriverInstr i = true)
    (h : exec i s = .next t) : s.port = .idle := by
  cases i <;> first | exact (onIdlePort_next_iff.mp h).1 | simp [isDriverInstr] at hd

/-- R8: with an operation in flight no driver instruction is issued. -/
theorem exec_driver_busy {i : Instr} {s : State} (hd : isDriverInstr i = true)
    (h : s.port ≠ .idle) : exec i s = .refused .operationInFlight := by
  cases i <;> first | exact onIdlePort_of_busy h | simp [isDriverInstr] at hd

/-- On an idle port every driver instruction answers a next state. -/
theorem exec_driver_idle {i : Instr} {s : State} (hd : isDriverInstr i = true)
    (h : s.port = .idle) : ∃ t, exec i s = .next t := by
  cases i <;> first | exact ⟨_, onIdlePort_of_idle h⟩ | simp [isDriverInstr] at hd

/-! ## The input a step takes -/

/-- A listed step of another agent is the next step. -/
theorem step_env {s : State} {e : EnvStep} {rest : List Input} (h : s.inputs = .env e :: rest) :
    step s = runEnv e { s with inputs := rest } := by
  simp [step, stepOnce, State.nextInput, State.afterFetch, State.inputTaken, h, runInput]

/-- A listed request on an idle port is issued. -/
theorem step_request {s : State} {r : Request} {rest : List Input}
    (h : s.inputs = .request r :: rest) (hp : s.port = .idle) :
    step s = exec (decodeRequest r) { s with inputs := rest } := by
  simp [step, stepOnce, State.nextInput, State.afterFetch, State.inputTaken, h, hp, runInput, issue]

/-- A request waits while an operation is in flight, and another agent's step is drawn. -/
theorem step_blocked {s : State} {r : Request} {rest : List Input}
    (h : s.inputs = .request r :: rest) (hp : s.port ≠ .idle) :
    step s = runEnv (Config.freeStep s.draws) { s with draws := s.draws + 1 } := by
  have : s.port.isIdle = false := by simpa using hp
  simp [step, stepOnce, State.nextInput, State.afterFetch, State.inputTaken, h, this, runInput]

/-- With no input listed another agent's step is drawn. -/
theorem step_free {s : State} (h : s.inputs = []) :
    step s = runEnv (Config.freeStep s.draws) { s with draws := s.draws + 1 } := by
  simp [step, stepOnce, State.nextInput, State.afterFetch, State.inputTaken, h, runInput]

/-- Everything a step can be: the issue of a request on an idle port, or a step of another agent; the
state it starts from is `s` but for `inputs` and `draws`. -/
theorem step_cases (s : State) :
    (∃ r rest, s.inputs = .request r :: rest ∧ s.port = .idle ∧ s.nextInput = .request r ∧
      step s = exec (decodeRequest r) { s with inputs := rest }) ∨
    (∃ e inputs draws, s.nextInput = .env e ∧
      step s = runEnv e { s with inputs := inputs, draws := draws }) := by
  cases h : s.inputs with
  | nil =>
    refine .inr ⟨_, s.inputs, _, by simp [State.nextInput, h], step_free h⟩
  | cons i rest =>
    cases i with
    | env e => exact .inr ⟨e, rest, s.draws, by simp [State.nextInput, State.inputTaken, h], step_env h⟩
    | request r =>
      by_cases hp : s.port = .idle
      · exact .inl ⟨r, rest, rfl, hp, by simp [State.nextInput, State.inputTaken, h, hp],
          step_request h hp⟩
      · have hb : s.port.isIdle = false := by simpa using hp
        refine .inr ⟨_, s.inputs, _, by simp [State.nextInput, State.inputTaken, h, hb],
          step_blocked h hp⟩

/-! ## Runs -/

/-- A run of at least one step is a step and a run. -/
theorem run_succ (k : Nat) (s : State) : Host.Core.run Sys2Proof.core (k + 1) s =
    match step s with
    | .next t => Host.Core.run Sys2Proof.core k t
    | .fault f => .fault f
    | .refused r => .refused r := by
  cases h : step s <;>
    simp only [Host.Core.run, show Sys2Proof.core.step s = step s from rfl, h]

@[simp] theorem run_zero (s : State) : Host.Core.run Sys2Proof.core 0 s = .next s := rfl

/-- A run goes on from the state its first step answers. -/
theorem run_step {k : Nat} {s t : State} (h : step s = .next t) :
    Host.Core.run Sys2Proof.core (k + 1) s = Host.Core.run Sys2Proof.core k t := by
  have := run_succ k s
  rw [h] at this
  exact this

/-- A run that answers a next state has a first step that does, and goes on from it. -/
theorem run_next {k : Nat} {s u : State}
    (h : Host.Core.run Sys2Proof.core (k + 1) s = .next u) :
    ∃ t, step s = .next t ∧ Host.Core.run Sys2Proof.core k t = .next u := by
  have hk := run_succ k s
  cases hs : step s with
  | next t => rw [hs] at hk; exact ⟨t, rfl, hk.symm.trans h⟩
  | fault f => rw [hs] at hk; cases hk.symm.trans h
  | refused r => rw [hs] at hk; cases hk.symm.trans h

end Sys2Proof.Machine
end

