-- ==== Sys2Proof/Laws/Effects.lean ====
section
/-! SUPPORT. Everything a step can do to the state, said once: what a driver instruction answers, what
the POLL of the operation in flight does, and what each other agent's step does. Invariants and
whole-machine statements go by cases on these and unfold no meaning. -/

namespace Sys2Proof.Machine

/-! ## The driver's instructions -/

/-- `DriverEffect s i t`: issued on the idle port of `s`, the driver instruction `i` answers `t`. -/
inductive DriverEffect (s : State) : Instr → State → Prop
  /-- A result and no other change: a query, a read, a reserved code, or misuse (R175). -/
  | answer (i : Instr) (r : Result) (buf : List Byte) : DriverEffect s i (s.answers r buf)
  | setupBus : s.phase.operational = true →
      DriverEffect s .setupBus (({ s with busReady := true }).answers (.ok .unit) [])
  | init : initLegal s.phase = true →
      DriverEffect s .init (s.initialize.answers (.ok .unit) [])
  | waitForReset (line timeout : Word) (r : ResetLine) : s.phase ≠ .uninitialized →
      resetLineOf line = some r →
      DriverEffect s (.waitForReset line timeout)
        { s with rstReq := s.rstReq.set true r, port := .waitForReset r timeout 0 }
  | waitWhileBusy (timeoutUs : Word) : s.phase.operational = true →
      DriverEffect s (.waitWhileBusy timeoutUs) { s with port := .waitWhileBusy timeoutUs 0 }
  | readNothing : s.phase = .dataTransfer → s.busReady = true →
      DriverEffect s (.readData []) (({ s with phase := .standby }).answers (.ok .unit) [])
  | readData (buf : List Byte) : s.phase = .dataTransfer → s.busReady = true → 0 < buf.length →
      DriverEffect s (.readData buf) { s with port := .readData buf 0 0 }
  | writeNothing : s.phase = .dataTransfer → s.busReady = true →
      DriverEffect s (.writeData []) (({ s with phase := .standby }).answers (.ok .unit) [])
  | writeData (buf : List Byte) : s.phase = .dataTransfer → s.busReady = true → 0 < buf.length →
      DriverEffect s (.writeData buf) { s with port := .writeData buf 0 0 }
  | sendTuning (mode width : Word) (m : TuningMode) (w : TuningWidth) :
      s.phase.operational = true → s.busReady = true → s.tuningActive = false →
      tuningModeOf mode = some m → tuningWidthOf width = some w →
      DriverEffect s (.sendTuning mode width)
        (({ s with tuningActive := true, tuningMode := m, tuningWidth := w }).answers (.ok .unit) [])
  | setInterrupt (v : Word) : s.phase ≠ .uninitialized →
      DriverEffect s (.setInterrupt v) (({ s with intSt := s.intSt ||| v }).answers (.ok .unit) [])
  | clearAllInterrupt : s.phase ≠ .uninitialized →
      DriverEffect s .clearAllInterrupt (({ s with intSt := 0 }).answers (.ok .unit) [])
  | setResponseInterrupt (v : Word) : s.phase ≠ .uninitialized →
      DriverEffect s (.setResponseInterrupt v)
        (({ s with rintSt := s.rintSt ||| v }).answers (.ok .unit) [])
  | clearAllResponseInterrupt : s.phase ≠ .uninitialized →
      DriverEffect s .clearAllResponseInterrupt (({ s with rintSt := 0 }).answers (.ok .unit) [])
  | readCommand : s.phase = .standby → s.busReady = true →
      DriverEffect s .readCommand { s with port := .readCommand 0 }
  | writeResponse (index : Index) (withCrc : Bool) (payload : Word) :
      s.phase = .commandPending → s.busReady = true →
      DriverEffect s (.writeResponse index withCrc payload)
        (({ s with respReg := encodeResponse index payload withCrc, respReady := true,
                   phase := phaseAfterResponse s }).answers (.ok .unit) [])

/-- A driver instruction runs on an idle port and has one of the effects above. -/
theorem exec_effect {i : Instr} {s t : State} (hd : isDriverInstr i = true)
    (h : exec i s = .next t) : s.port = .idle ∧ DriverEffect s i t := by
  have hp := exec_driver_next hd h
  refine ⟨hp, ?_⟩
  have answer : ∀ (i : Instr) (r : Result) (buf : List Byte), DriverEffect s i (s.complete r buf) :=
    fun i r buf => State.complete_of_idle hp r buf ▸ .answer i r buf
  cases i <;> try (obtain ⟨-, rfl⟩ := onIdlePort_next_iff.mp h)
  case cmd48 => cases hd
  case rsp48 => cases hd
  case setupBus =>
    split
    · rw [State.complete_of_idle (by exact hp)]; exact .setupBus ‹_›
    · exact answer ..
  case init =>
    split
    · rw [State.complete_of_idle (by exact hp)]; exact .init ‹_›
    · exact answer ..
  case fifoReady => split <;> exact answer ..
  case waitForReset line timeout =>
    split
    · rename_i r hi hr
      exact .waitForReset line timeout r ((Phase.initialized_iff _).mp hi) hr
    · exact answer ..
  case waitWhileBusy timeoutUs =>
    split
    · exact .waitWhileBusy timeoutUs ‹_›
    · exact answer ..
  case readData buf =>
    split
    · obtain ⟨h1, h2⟩ := (State.pumpLegal_iff s).mp ‹_›
      cases buf with
      | nil => simp only [List.isEmpty_nil, if_true]
               rw [State.complete_of_idle (by exact hp)]; exact .readNothing h1 h2
      | cons b bs => exact .readData (b :: bs) h1 h2 (by simp)
    · exact answer ..
  case writeData buf =>
    split
    · obtain ⟨h1, h2⟩ := (State.pumpLegal_iff s).mp ‹_›
      cases buf with
      | nil => simp only [List.isEmpty_nil, if_true]
               rw [State.complete_of_idle (by exact hp)]; exact .writeNothing h1 h2
      | cons b bs => exact .writeData (b :: bs) h1 h2 (by simp)
    · exact answer ..
  case sendTuning mode width =>
    split
    · rename_i m w hl hm hw
      simp only [State.tuningLegal, Bool.and_eq_true, Bool.not_eq_true'] at hl
      rw [State.complete_of_idle (by exact hp)]
      exact .sendTuning mode width m w hl.1.1 hl.1.2 hl.2 hm hw
    · exact answer ..
  case interrupt => split <;> exact answer ..
  case setInterrupt v =>
    split
    · rw [State.complete_of_idle (by exact hp)]
      exact .setInterrupt v ((Phase.initialized_iff _).mp ‹_›)
    · exact answer ..
  case clearAllInterrupt =>
    split
    · rw [State.complete_of_idle (by exact hp)]
      exact .clearAllInterrupt ((Phase.initialized_iff _).mp ‹_›)
    · exact answer ..
  case responseInterrupt => split <;> exact answer ..
  case setResponseInterrupt v =>
    split
    · rw [State.complete_of_idle (by exact hp)]
      exact .setResponseInterrupt v ((Phase.initialized_iff _).mp ‹_›)
    · exact answer ..
  case clearAllResponseInterrupt =>
    split
    · rw [State.complete_of_idle (by exact hp)]
      exact .clearAllResponseInterrupt ((Phase.initialized_iff _).mp ‹_›)
    · exact answer ..
  case readCommand =>
    split
    · exact .readCommand (‹_ ∧ _›).1 (‹_ ∧ _›).2
    · exact answer ..
  case writeResponse index withCrc payload =>
    split
    · rw [State.complete_of_idle (by exact hp)]
      exact .writeResponse index withCrc payload (‹_ ∧ _›).1 (‹_ ∧ _›).2
    · exact answer ..
  all_goals exact answer ..

/-! ## POLL -/

/-- A POLL finds neither its condition nor its deadline (R159): what the operation in flight still waits
for, and that its deadline has not come. -/
inductive State.Waits (s : State) : Prop
  | idle : s.port = .idle → s.Waits
  | command (elapsed : Nat) : s.port = .readCommand elapsed → s.cmdPending = false →
      (∀ t, s.params.tCfgUs = some t → elapsed < t) → s.Waits
  | read (buf : List Byte) (i elapsed : Nat) : s.port = .readData buf i elapsed →
      s.xferFault = false → s.rxf = [] → (∀ t, s.params.tCfgUs = some t → elapsed < t) → s.Waits
  | write (buf : List Byte) (i elapsed : Nat) : s.port = .writeData buf i elapsed →
      s.xferFault = false → s.params.fifoDepth ≤ s.txf.length →
      (∀ t, s.params.tCfgUs = some t → elapsed < t) → s.Waits
  | busy (timeoutUs : Word) (elapsed : Nat) : s.port = .waitWhileBusy timeoutUs elapsed →
      s.busy = true → elapsed < timeoutUs.toNat → s.Waits
  | reset (line : ResetLine) (timeoutUs : Word) (elapsed : Nat) :
      s.port = .waitForReset line timeoutUs elapsed → s.rstReq.get line = true →
      elapsed < timeoutUs.toNat → s.Waits

/-- `PollEffect s t`: the POLL of the operation in flight in `s` answers `t` (R112, R123, R126, R130,
R134). -/
inductive PollEffect (s : State) : State → Prop
  | waiting : s.Waits → PollEffect s s
  | commandCrc (elapsed : Nat) : s.port = .readCommand elapsed → s.cmdPending = true →
      s.cmdCrcFail = true → PollEffect s (s.consumeLatch.enterError .crc [])
  | commandIllegal (elapsed : Nat) : s.port = .readCommand elapsed → s.cmdPending = true →
      s.cmdCrcFail = false → frameLegal s.params s.cmdLatch = false →
      PollEffect s (s.consumeLatch.enterError .illegalCommand [])
  | commandOk (elapsed : Nat) : s.port = .readCommand elapsed → s.cmdPending = true →
      s.cmdCrcFail = false → frameLegal s.params s.cmdLatch = true →
      PollEffect s (({ s.consumeLatch with
        curIndex := frameIndex s.cmdLatch, phase := .commandPending }).complete
          (.ok (.command (commandOf s.cmdLatch))) [])
  | commandTimeout (elapsed t : Nat) : s.port = .readCommand elapsed → s.cmdPending = false →
      s.params.tCfgUs = some t → t ≤ elapsed → PollEffect s (s.enterError .general [])
  | readFault (buf : List Byte) (i elapsed : Nat) : s.port = .readData buf i elapsed →
      s.xferFault = true → PollEffect s (s.enterError .general buf)
  | readByte (buf : List Byte) (i elapsed : Nat) (b : Byte) (rest : List Byte) :
      s.port = .readData buf i elapsed → s.xferFault = false → s.rxf = b :: rest →
      i + 1 < buf.length →
      PollEffect s { s with rxf := rest, port := .readData (buf.set i b) (i + 1) elapsed }
  | readLast (buf : List Byte) (i elapsed : Nat) (b : Byte) (rest : List Byte) :
      s.port = .readData buf i elapsed → s.xferFault = false → s.rxf = b :: rest →
      i + 1 = buf.length →
      PollEffect s (({ s with rxf := rest, phase := .standby }).complete (.ok .unit) (buf.set i b))
  | readTimeout (buf : List Byte) (i elapsed t : Nat) : s.port = .readData buf i elapsed →
      s.xferFault = false → s.rxf = [] → s.params.tCfgUs = some t → t ≤ elapsed →
      PollEffect s (s.enterError .general buf)
  | writeFault (buf : List Byte) (i elapsed : Nat) : s.port = .writeData buf i elapsed →
      s.xferFault = true → PollEffect s (s.enterError .general buf)
  | writeByte (buf : List Byte) (i elapsed : Nat) (b : Byte) :
      s.port = .writeData buf i elapsed → s.xferFault = false →
      s.txf.length < s.params.fifoDepth → buf[i]? = some b → i + 1 < buf.length →
      PollEffect s { s with txf := s.txf ++ [b], port := .writeData buf (i + 1) elapsed }
  | writeLast (buf : List Byte) (i elapsed : Nat) (b : Byte) :
      s.port = .writeData buf i elapsed → s.xferFault = false →
      s.txf.length < s.params.fifoDepth → buf[i]? = some b → i + 1 = buf.length →
      PollEffect s (({ s with txf := s.txf ++ [b], phase := .standby }).complete (.ok .unit) buf)
  | writeTimeout (buf : List Byte) (i elapsed t : Nat) : s.port = .writeData buf i elapsed →
      s.xferFault = false → s.params.fifoDepth ≤ s.txf.length → s.params.tCfgUs = some t →
      t ≤ elapsed → PollEffect s (s.enterError .general buf)
  | busyDone (timeoutUs : Word) (elapsed : Nat) : s.port = .waitWhileBusy timeoutUs elapsed →
      s.busy = false → PollEffect s (s.complete (.ok .unit) [])
  | busyTimeout (timeoutUs : Word) (elapsed : Nat) : s.port = .waitWhileBusy timeoutUs elapsed →
      s.busy = true → timeoutUs.toNat ≤ elapsed → PollEffect s (s.enterError .general [])
  | resetDone (line : ResetLine) (timeoutUs : Word) (elapsed : Nat) :
      s.port = .waitForReset line timeoutUs elapsed → s.rstReq.get line = false →
      PollEffect s (s.complete (.ok .unit) [])
  | resetTimeout (line : ResetLine) (timeoutUs : Word) (elapsed : Nat) :
      s.port = .waitForReset line timeoutUs elapsed → s.rstReq.get line = true →
      timeoutUs.toNat ≤ elapsed →
      PollEffect s (({ s with rstReq := s.rstReq.set false line }).enterError .general [])

theorem not_cfgExpired {tCfgUs : Option Nat} {elapsed : Nat} (h : ¬ cfgExpired tCfgUs elapsed = true) :
    ∀ t, tCfgUs = some t → elapsed < t := by
  intro t ht
  by_contra hc
  exact h ((cfgExpired_iff _ _).mpr ⟨t, ht, by omega⟩)

theorem pollReadCommand_effect {s : State} {elapsed : Nat} (hp : s.port = .readCommand elapsed) :
    PollEffect s (pollReadCommand elapsed s) := by
  unfold pollReadCommand
  split
  · split
    · exact .commandCrc elapsed hp ‹_› ‹_›
    · split
      · exact .commandOk elapsed hp ‹_› (by simpa using ‹¬ s.cmdCrcFail = true›) ‹_›
      · exact .commandIllegal elapsed hp ‹_› (by simpa using ‹¬ s.cmdCrcFail = true›)
          (by simpa using ‹¬ frameLegal _ _ = true›)
  · split
    · obtain ⟨t, h1, h2⟩ := (cfgExpired_iff _ _).mp ‹_›
      exact .commandTimeout elapsed t hp (by simpa using ‹¬ s.cmdPending = true›) h1 h2
    · exact .waiting (.command elapsed hp (by simpa using ‹¬ s.cmdPending = true›)
        (not_cfgExpired ‹_›))

theorem pollReadData_effect {s t : State} {buf : List Byte} {i elapsed : Nat}
    (hp : s.port = .readData buf i elapsed) (h : pollReadData buf i elapsed s = .next t) :
    PollEffect s t := by
  unfold pollReadData at h
  split at h
  · cases h; exact .readFault buf i elapsed hp ‹_›
  · have hx : s.xferFault = false := by simpa using ‹¬ s.xferFault = true›
    split at h
    · rename_i b rest hr
      split at h
      · rename_i buf' hb
        obtain ⟨hlt, rfl⟩ := bufWrite_eq_some_iff.mp hb
        simp only at h
        split at h <;> cases h
        · exact .readLast buf i elapsed b rest hp hx hr ‹_›
        · exact .readByte buf i elapsed b rest hp hx hr (by omega)
      · cases h
    · split at h <;> cases h
      · obtain ⟨t, h1, h2⟩ := (cfgExpired_iff _ _).mp ‹_›
        exact .readTimeout buf i elapsed t hp hx ‹_› h1 h2
      · exact .waiting (.read buf i elapsed hp hx ‹_› (not_cfgExpired ‹_›))

theorem pollWriteData_effect {s t : State} {buf : List Byte} {i elapsed : Nat}
    (hp : s.port = .writeData buf i elapsed) (h : pollWriteData buf i elapsed s = .next t) :
    PollEffect s t := by
  unfold pollWriteData at h
  split at h
  · cases h; exact .writeFault buf i elapsed hp ‹_›
  · have hx : s.xferFault = false := by simpa using ‹¬ s.xferFault = true›
    split at h
    · have hw := s.wrReady_iff.mp ‹_›
      split at h
      · rename_i b hb
        obtain ⟨hlt, _⟩ := bufRead_eq_some_iff.mp hb
        simp only at h
        split at h <;> cases h
        · exact .writeLast buf i elapsed b hp hx hw hb ‹_›
        · exact .writeByte buf i elapsed b hp hx hw hb (by omega)
      · cases h
    · have hw : s.params.fifoDepth ≤ s.txf.length := by
        have := s.wrReady_iff.not.mp ‹_›; omega
      split at h <;> cases h
      · obtain ⟨t, h1, h2⟩ := (cfgExpired_iff _ _).mp ‹_›
        exact .writeTimeout buf i elapsed t hp hx hw h1 h2
      · exact .waiting (.write buf i elapsed hp hx hw (not_cfgExpired ‹_›))

theorem pollWaitWhileBusy_effect {s : State} {timeoutUs : Word} {elapsed : Nat}
    (hp : s.port = .waitWhileBusy timeoutUs elapsed) :
    PollEffect s (pollWaitWhileBusy timeoutUs elapsed s) := by
  unfold pollWaitWhileBusy
  split
  · split
    · exact .busyTimeout timeoutUs elapsed hp ‹_› ((expired_iff _ _).mp ‹_›)
    · exact .waiting (.busy timeoutUs elapsed hp ‹_› (by simpa using ‹¬ expired _ _ = true›))
  · exact .busyDone timeoutUs elapsed hp (by simpa using ‹¬ s.busy = true›)

theorem pollWaitForReset_effect {s : State} {line : ResetLine} {timeoutUs : Word} {elapsed : Nat}
    (hp : s.port = .waitForReset line timeoutUs elapsed) :
    PollEffect s (pollWaitForReset line timeoutUs elapsed s) := by
  unfold pollWaitForReset
  split
  · split
    · exact .resetTimeout line timeoutUs elapsed hp ‹_› ((expired_iff _ _).mp ‹_›)
    · exact .waiting (.reset line timeoutUs elapsed hp ‹_› (by simpa using ‹¬ expired _ _ = true›))
  · exact .resetDone line timeoutUs elapsed hp (by simpa using ‹¬ s.rstReq.get line = true›)

/-- Everything a POLL that answers a next state can do. -/
theorem poll_effect {s t : State} (h : runEnv .poll s = .next t) : PollEffect s t := by
  simp only [runEnv, poll] at h
  split at h
  · cases h; exact .waiting (.idle ‹_›)
  · cases h; exact pollReadCommand_effect ‹_›
  · exact pollReadData_effect ‹_› h
  · exact pollWriteData_effect ‹_› h
  · cases h; exact pollWaitWhileBusy_effect ‹_›
  · cases h; exact pollWaitForReset_effect ‹_›

/-- A POLL stops only where `i` is no index of the caller buffer (log 8). -/
theorem poll_next {s : State} (hr : ∀ buf i elapsed, s.port = .readData buf i elapsed → i < buf.length)
    (hw : ∀ buf i elapsed, s.port = .writeData buf i elapsed → i < buf.length) :
    ∃ t, runEnv .poll s = .next t := by
  simp only [runEnv, poll]
  split
  · exact ⟨_, rfl⟩
  · exact ⟨_, rfl⟩
  · unfold pollReadData
    simp only [bufWrite, hr _ _ _ ‹_›, if_true]
    repeat' split
    all_goals exact ⟨_, rfl⟩
  · unfold pollWriteData
    simp only [bufRead, List.getElem?_eq_getElem (hw _ _ _ ‹_›)]
    repeat' split
    all_goals exact ⟨_, rfl⟩
  · exact ⟨_, rfl⟩
  · exact ⟨_, rfl⟩

/-! ## The other steps of the host, the hardware and the clock -/

/-- When each step of another agent is enabled (R150 to R160). -/
def State.enables (s : State) : EnvStep → Prop
  | .sendCommand _ => s.phase = .standby ∧ s.cmdPending = false ∧ s.respReady = false
  | .takeResponse => s.respReady = true
  | .pushByte _ => s.phase ≠ .uninitialized ∧ s.rxf.length < s.params.fifoDepth
  | .popByte => s.txf ≠ []
  | .busFault => s.phase = .dataTransfer
  | .hwReset line => s.rstReq.get line = true
  | .tuningDone => s.tuningActive = true
  | .poll => s.port ≠ .idle
  | .tick => s.port ≠ .idle

/-- `EnvEffect s e t`: the step `e` of another agent takes `s` to `t`. -/
inductive EnvEffect (s : State) : EnvStep → State → Prop
  /-- Not enabled (log 2). -/
  | idle (e : EnvStep) : ¬ s.enables e → EnvEffect s e s
  | latch (f : Frame) : s.phase = .standby → s.cmdPending = false → s.respReady = false →
      EnvEffect s (.sendCommand f)
        { s with cmdLatch := f, cmdPending := true, cmdCrcFail := crcBad f,
                 rintSt := if crcBad f then setBit (setBit s.rintSt 0) 1 else setBit s.rintSt 0 }
  | takeResponse : s.respReady = true →
      EnvEffect s .takeResponse
        { s with respReady := false, rintSt := setBit s.rintSt 2,
                 hostFrames := s.hostFrames ++ [s.respReg],
                 phase := if s.phase = .responseReady then .standby else s.phase }
  | pushByte (b : Byte) : s.phase ≠ .uninitialized → s.rxf.length < s.params.fifoDepth →
      EnvEffect s (.pushByte b)
        { s with rxf := s.rxf ++ [b], intSt := setBit s.intSt 0, hostPushed := s.hostPushed ++ [b] }
  | popByte (b : Byte) (rest : List Byte) : s.txf = b :: rest →
      EnvEffect s .popByte
        { s with txf := rest, hostPopped := s.hostPopped ++ [b],
                 intSt := if rest = [] then setBit s.intSt 1 else s.intSt }
  | busFault : s.phase = .dataTransfer →
      EnvEffect s .busFault { s with xferFault := true, intSt := setBit s.intSt 2 }
  | resetAll : s.rstReq.all = true → EnvEffect s (.hwReset .all) s.resetAll
  | resetCmd : s.rstReq.cmd = true → EnvEffect s (.hwReset .cmd) s.resetCmdLine
  | resetData : s.rstReq.data = true → EnvEffect s (.hwReset .data) s.resetDataLine
  | tuningDone : s.tuningActive = true →
      EnvEffect s .tuningDone { s with tuningActive := false, intSt := setBit s.intSt 4 }
  | poll (t : State) : PollEffect s t → EnvEffect s .poll t
  | tick : EnvEffect s .tick { s with port := s.port.tick }

/-- Everything a step of another agent can do. -/
theorem env_effect {e : EnvStep} {s t : State} (h : runEnv e s = .next t) : EnvEffect s e t := by
  cases e with
  | sendCommand f =>
    rw [runEnv_sendCommand] at h; cases h
    split
    · obtain ⟨h1, h2, h3⟩ := s.latchArmed_iff.mp ‹_›
      rw [State.latch_eq]; exact .latch f h1 h2 h3
    · exact .idle _ (s.latchArmed_iff.not.mp ‹_›)
  | takeResponse => cases h; split <;> [exact .takeResponse ‹_›; exact .idle _ ‹_›]
  | pushByte b =>
    cases h
    split
    · have h := ‹(_ && _) = true›
      rw [Bool.and_eq_true, Phase.initialized_iff, State.rxRoom_iff] at h
      exact .pushByte b h.1 h.2
    · refine .idle _ fun h => ‹¬ _› ?_
      rw [Bool.and_eq_true, Phase.initialized_iff, State.rxRoom_iff]
      exact h
  | popByte =>
    cases h
    split
    · exact .idle _ fun h => h ‹_›
    · rename_i b rest hx
      have := EnvEffect.popByte (s := s) b rest hx
      cases rest <;> exact this
  | busFault => cases h; split <;> [exact .busFault ‹_›; exact .idle _ ‹_›]
  | hwReset line =>
    cases h
    split
    · cases line <;> [exact .resetAll ‹_›; exact .resetCmd ‹_›; exact .resetData ‹_›]
    · exact .idle _ ‹_›
  | tuningDone => cases h; split <;> [exact .tuningDone ‹_›; exact .idle _ ‹_›]
  | poll => exact .poll t (poll_effect h)
  | tick => cases h; exact .tick

/-- A step of another agent answers a next state, but for the POLL of `poll_next`. -/
theorem env_next {e : EnvStep} (s : State) (he : e ≠ .poll) : ∃ t, runEnv e s = .next t := by
  cases e
  case sendCommand => rw [runEnv_sendCommand]; exact ⟨_, rfl⟩
  case poll => exact absurd rfl he
  all_goals exact ⟨_, rfl⟩

/-- Everything a step that answers a next state can do: an instruction issued on an idle port, or
another agent's step; `inputs` and `draws` are what the step's fetch leaves (log 1). -/
theorem step_effect {s t : State} (h : step s = .next t) :
    (∃ r rest, s.inputs = .request r :: rest ∧ s.nextInput = .request r ∧ s.port = .idle ∧
      DriverEffect { s with inputs := rest } (decodeRequest r) t) ∨
    (∃ e inputs draws, s.nextInput = .env e ∧
      EnvEffect { s with inputs := inputs, draws := draws } e t) := by
  rcases step_cases s with ⟨r, rest, hi, hp, hn, hs⟩ | ⟨e, inputs, draws, hn, hs⟩
  · rw [hs] at h
    exact .inl ⟨r, rest, hi, hn, hp, (exec_effect (isDriverInstr_decodeRequest r) h).2⟩
  · rw [hs] at h
    exact .inr ⟨e, inputs, draws, hn, env_effect h⟩

end Sys2Proof.Machine
end

