-- ==== Sys2Proof/Laws/Invariant.lean ====
section
/-! SUPPORT. The small lemmas about the invariants of Safety.lean: which fields they do not look at, and
what they say of an idle port. -/

namespace Sys2Proof

/-- An entry accepts an argument with an index only if it accepts its own value with it. -/
theorem CmdPattern.accepts_value {q : CmdPattern} {index : Index} {arg : Word}
    (h : q.accepts index arg = true) : q.accepts index q.value = true := by
  simp only [CmdPattern.accepts, Bool.and_eq_true, beq_iff_eq] at h ⊢
  obtain ⟨hi, ha⟩ := h
  refine ⟨hi, ?_⟩
  rw [← ha, BitVec.and_assoc, BitVec.and_self]

/-- `legalIndex` is: legal with some argument. -/
theorem legalIndex_iff (p : Params) (index : Index) :
    legalIndex p.legal index = true ↔ ∃ arg, p.legalCmd index arg = true := by
  simp only [legalIndex, Params.legalCmd, List.any_eq_true]
  constructor
  · rintro ⟨q, hq, ha⟩
    exact ⟨q.value, q, hq, ha⟩
  · rintro ⟨arg, q, hq, ha⟩
    exact ⟨q, hq, CmdPattern.accepts_value ha⟩

/-- R4: the parameters that reset starts with meet their constraints. -/
theorem Config.params_valid : Config.params.valid where
  fifoDepth := Nat.le_add_left 1 _
  legalFive arg := by
    simp [Config.params, Config.legal, Params.legalCmd, CmdPattern.accepts]
  dataLegal index h := by
    refine (legalIndex_iff _ _).mp ?_
    simp only [Config.params, Config.dataCmds, Params.isDataCmd, List.contains_iff_mem,
      List.mem_filter] at h
    exact h.2

/-- R70: nothing else is asked of `DATA_CMD`; a list whose members are all legal is left as it is. -/
theorem filter_legalIndex {p : Params} (h : p.valid) :
    p.dataCmds.filter (legalIndex p.legal) = p.dataCmds :=
  List.filter_eq_self.mpr fun index hi =>
    (legalIndex_iff p index).mpr (h.dataLegal index (by simpa [Params.isDataCmd] using hi))

namespace Machine

/-- The invariants do not look at the inputs and the draw counter (log 1). -/
theorem State.Inv.fetch {s : State} (h : s.Inv) (inputs : List Input) (draws : Nat) :
    ({ s with inputs := inputs, draws := draws } : State).Inv :=
  ⟨⟨h.1.1, h.1.2, h.1.3, h.1.4, h.1.5, h.1.6, h.1.7, h.1.8, h.1.9, h.1.10, h.1.11, h.1.12, h.1.13⟩,
   ⟨h.2.1, h.2.2, h.2.3, h.2.4, h.2.5⟩⟩

/-- Nor at what the caller has received. -/
theorem State.Inv.answers {s : State} (h : s.Inv) (r : Result) (buf : List Byte) :
    (s.answers r buf).Inv :=
  ⟨⟨h.1.1, h.1.2, h.1.3, h.1.4, h.1.5, h.1.6, h.1.7, h.1.8, h.1.9, h.1.10, h.1.11, h.1.12, h.1.13⟩,
   ⟨h.2.1, h.2.2, h.2.3, h.2.4, h.2.5⟩⟩

/-- Nor at the interrupt registers. -/
theorem State.Inv.interrupts {s : State} (h : s.Inv) (a b : Word) :
    ({ s with intSt := a, rintSt := b } : State).Inv :=
  ⟨⟨h.1.1, h.1.2, h.1.3, h.1.4, h.1.5, h.1.6, h.1.7, h.1.8, h.1.9, h.1.10, h.1.11, h.1.12, h.1.13⟩,
   ⟨h.2.1, h.2.2, h.2.3, h.2.4, h.2.5⟩⟩

/-- R35 item 8: unless `wait_for_reset` is in flight no reset line is asserted. -/
theorem State.Inv.no_request {s : State} (h : s.Inv)
    (hp : ∀ r timeoutUs elapsed, s.port ≠ .waitForReset r timeoutUs elapsed) (r : ResetLine) :
    s.rstReq.get r = false := by
  by_contra hc
  obtain ⟨timeoutUs, elapsed, he⟩ := h.1.resetInFlight r (by simpa using hc)
  exact hp _ _ _ he

theorem State.Inv.no_request_of_idle {s : State} (h : s.Inv) (hp : s.port = .idle) (r : ResetLine) :
    s.rstReq.get r = false :=
  h.no_request (by simp [hp]) r

/-- R35 item 9 keeps every POLL inside the caller buffer, so every step of another agent answers. -/
theorem State.Inv.env_next {s : State} (h : s.Inv) (e : EnvStep) : ∃ t, runEnv e s = .next t := by
  by_cases he : e = .poll
  · subst he
    exact poll_next (fun _ _ _ hp => (h.1.portReadData _ _ _ hp).2)
      (fun _ _ _ hp => (h.1.portWriteData _ _ _ hp).2)
  · exact Machine.env_next s he

end Machine

end Sys2Proof
end

