-- ==== Sys2Proof/Laws/PerInstr.lean ====
section
/-! SUPPORT. One lemma per constructor of `Instr`: its encoding has the fixed bits of its row of
spec/opcode_table.json. -/

namespace Sys2Proof.Laws.MatchesRow

open Sys2Proof

/-- The `match` and `mask` columns of the instruction's row, copied from spec/opcode_table.json. -/
def row : Instr → Nat × Nat
  | .cardType => (0x00, 0xFF)
  | .cardMode => (0x01, 0xFF)
  | .setupBus => (0x02, 0xFF)
  | .init => (0x03, 0xFF)
  | .fifoReady _ => (0x04, 0xFF)
  | .waitForReset _ _ => (0x05, 0xFF)
  | .waitWhileBusy _ => (0x06, 0xFF)
  | .readData _ => (0x07, 0xFF)
  | .writeData _ => (0x08, 0xFF)
  | .sendTuning _ _ => (0x09, 0xFF)
  | .interrupt => (0x0A, 0xFF)
  | .setInterrupt _ => (0x0B, 0xFF)
  | .clearAllInterrupt => (0x0C, 0xFF)
  | .responseInterrupt => (0x0D, 0xFF)
  | .setResponseInterrupt _ => (0x0E, 0xFF)
  | .clearAllResponseInterrupt => (0x0F, 0xFF)
  | .readCommand => (0x10, 0xFF)
  | .writeResponse _ _ _ => (0x11, 0xFF)
  | .reserved12To13 _ => (0x12, 0xFE)
  | .reserved14To17 _ => (0x14, 0xFC)
  | .reserved18To1F _ => (0x18, 0xF8)
  | .reserved20To3F _ => (0x20, 0xE0)
  | .reserved40To7F _ => (0x40, 0xC0)
  | .reserved80ToFF _ => (0x80, 0x80)
  | .cmd48 _ _ _ => (0x400000000001, 0xC00000000001)
  | .rsp48 _ _ _ => (0x000000000001, 0xC00000000001)

/-- The row's bits of a packet: a request is matched on OPSEL (R75), a frame on its 48 bits. -/
def fixedBits (p : Packet) (row : Nat × Nat) : Prop :=
  match p with
  | .request r => r.opsel &&& BitVec.ofNat 8 row.2 = BitVec.ofNat 8 row.1
  | .frame f => f &&& BitVec.ofNat 48 row.2 = BitVec.ofNat 48 row.1

/-- A well-formed instruction's encoding has its row's fixed bits. -/
def Statement (i : Instr) : Prop := i.wellFormed = true → fixedBits (encode i) (row i)

/-- The three framing bits of a frame decide its row. -/
theorem framing (f : Frame) (m : BitVec 48) (dir : Bool) (h47 : f.getLsbD 47 = false)
    (h46 : f.getLsbD 46 = dir) (h0 : f.getLsbD 0 = true)
    (hm : ∀ k, k < 48 → m.getLsbD k = (decide (k = 0) || (decide (k = 46) && dir))) :
    f &&& 0xC00000000001#48 = m := by
  have hc : ∀ k, k < 48 → (0xC00000000001#48).getLsbD k =
      (decide (k = 0) || decide (k = 46) || decide (k = 47)) := by decide
  refine BitVec.eq_of_getLsbD_eq fun k hk => ?_
  rw [BitVec.getLsbD_and, hc k hk, hm k hk]
  by_cases a : k = 0
  · subst a; simp [h0]
  · by_cases b : k = 46
    · subst b; rw [h46]; simp
    · by_cases c : k = 47
      · subst c; rw [h47]; simp
      · simp [a, b, c]

/-- A reserved OPSEL in its range has its row's fixed bits: all 256 codes are tried. -/
theorem reserved (lo hi hit mask : Nat)
    (all : ∀ k : Fin 256, lo ≤ k.val → k.val ≤ hi →
      BitVec.ofNat 8 k.val &&& BitVec.ofNat 8 mask = BitVec.ofNat 8 hit)
    (op : Opsel) (h : opselBetween lo hi op = true) :
    op &&& BitVec.ofNat 8 mask = BitVec.ofNat 8 hit := by
  simp only [opselBetween, Bool.and_eq_true, decide_eq_true_eq] at h
  have := all ⟨op.toNat, op.isLt⟩ h.1 h.2
  simpa using this

theorem cardType : Statement (.cardType) := fun _ => rfl

theorem cardMode : Statement (.cardMode) := fun _ => rfl

theorem setupBus : Statement (.setupBus) := fun _ => rfl

theorem init : Statement (.init) := fun _ => rfl

theorem fifoReady (a : Word) : Statement (.fifoReady a) := fun _ => by
  simp only [fixedBits, encode, plainRequest, row]; decide

theorem waitForReset (a b : Word) : Statement (.waitForReset a b) := fun _ => by
  simp only [fixedBits, encode, plainRequest, row]; decide

theorem waitWhileBusy (a : Word) : Statement (.waitWhileBusy a) := fun _ => by
  simp only [fixedBits, encode, plainRequest, row]; decide

theorem readData (buf : List Byte) : Statement (.readData buf) := fun _ => by
  simp only [fixedBits, encode, plainRequest, row]; decide

theorem writeData (buf : List Byte) : Statement (.writeData buf) := fun _ => by
  simp only [fixedBits, encode, plainRequest, row]; decide

theorem sendTuning (a b : Word) : Statement (.sendTuning a b) := fun _ => by
  simp only [fixedBits, encode, plainRequest, row]; decide

theorem interrupt : Statement (.interrupt) := fun _ => rfl

theorem setInterrupt (a : Word) : Statement (.setInterrupt a) := fun _ => by
  simp only [fixedBits, encode, plainRequest, row]; decide

theorem clearAllInterrupt : Statement (.clearAllInterrupt) := fun _ => rfl

theorem responseInterrupt : Statement (.responseInterrupt) := fun _ => rfl

theorem setResponseInterrupt (a : Word) : Statement (.setResponseInterrupt a) := fun _ => by
  simp only [fixedBits, encode, plainRequest, row]; decide

theorem clearAllResponseInterrupt : Statement (.clearAllResponseInterrupt) := fun _ => rfl

theorem readCommand : Statement (.readCommand) := fun _ => rfl

theorem writeResponse (index : Index) (withCrc : Bool) (payload : Word) : Statement (.writeResponse index withCrc payload) := fun _ => by
  simp only [fixedBits, encode, plainRequest, row]; decide

set_option maxRecDepth 4000 in
theorem reserved12To13 (op : Opsel) : Statement (.reserved12To13 op) :=
  reserved 0x12 0x13 0x12 0xFE (by decide) op

set_option maxRecDepth 4000 in
theorem reserved14To17 (op : Opsel) : Statement (.reserved14To17 op) :=
  reserved 0x14 0x17 0x14 0xFC (by decide) op

set_option maxRecDepth 4000 in
theorem reserved18To1F (op : Opsel) : Statement (.reserved18To1F op) :=
  reserved 0x18 0x1F 0x18 0xF8 (by decide) op

set_option maxRecDepth 4000 in
theorem reserved20To3F (op : Opsel) : Statement (.reserved20To3F op) :=
  reserved 0x20 0x3F 0x20 0xE0 (by decide) op

set_option maxRecDepth 4000 in
theorem reserved40To7F (op : Opsel) : Statement (.reserved40To7F op) :=
  reserved 0x40 0x7F 0x40 0xC0 (by decide) op

set_option maxRecDepth 4000 in
theorem reserved80ToFF (op : Opsel) : Statement (.reserved80ToFF op) :=
  reserved 0x80 0xFF 0x80 0x80 (by decide) op

theorem cmd48 (index : Index) (arg : Word) (crc : Crc7) : Statement (.cmd48 index arg crc) := fun _ =>
  framing _ 0x400000000001#48 true (by simpa [frameStartOk, commandFrame, responseFrame] using frameStartOk_closeFrame true index arg crc)
    (by simpa [frameDirOk, commandFrame, responseFrame] using frameDirOk_closeFrame true index arg crc)
    (closeFrame_getLsbD_zero _ _) (by decide)

theorem rsp48 (index : Index) (payload : Word) (crc : Crc7) : Statement (.rsp48 index payload crc) :=
  fun _ =>
  framing _ 0x000000000001#48 false (by simpa [frameStartOk, commandFrame, responseFrame] using frameStartOk_closeFrame false index payload crc)
    (by simpa [frameDirOk, commandFrame, responseFrame] using frameDirOk_closeFrame false index payload crc)
    (closeFrame_getLsbD_zero _ _) (by decide)

end Sys2Proof.Laws.MatchesRow
end

