-- ==== Sys2Proof/Tests/Slice0.lean ====
section
/-! SUPPORT. Tests: the well-formedness smoke, decoding and encoding of words written out from the spec,
one-step tests with the results of spec/95_test_vectors.md (the vector is named in each docstring),
and a witness for the hypotheses of every obligation. -/

namespace Sys2Proof.Tests

open Sys2Proof Sys2Proof.Machine

/-! ## Base states: the shorthands of 95_test_vectors.md at its default parameters -/

/-- `P0`, R33; the fields the spec leaves unspecified are arbitrary numbers. -/
def P0 : State where
  phase := .uninitialized
  port := .idle
  busReady := false
  cmdLatch := 0x123456789ABC
  cmdPending := false
  cmdCrcFail := false
  curIndex := 9
  respReg := 0xCBA987654321
  respReady := false
  rxf := []
  txf := []
  xferFault := false
  rstReq := ⟨false, false, false⟩
  tuningActive := false
  tuningMode := .hs200
  tuningWidth := .bits8
  intSt := 0xFFFFFFFF
  rintSt := 0xA5A5A5A5
  params := .vectors
  inputs := []
  results := []
  hostFrames := []
  hostPopped := []
  hostPushed := []
  draws := 1

/-- `S0`: right after `init ; setup_bus`. -/
def S0 : State :=
  { P0 with phase := .standby, busReady := true, cmdLatch := 0, curIndex := 0, respReg := 0,
            intSt := 0, rintSt := 0 }

/-- `DT` of section 5, FIFOs empty. -/
def DT : State := { S0 with phase := .dataTransfer }

/-- CommandPending after `cmd(index, …)`. -/
def CP (index : Index) : State := { S0 with phase := .commandPending, curIndex := index }

/-- ResponseReady with a response to collect. -/
def RR : State :=
  { S0 with phase := .responseReady, respReady := true, respReg := 0x3F90FF8000FF }

/-- The Error phase. -/
def ER : State := { S0 with phase := .error }

/-- The start of L12. -/
def ERfull : State :=
  { ER with rxf := [0x33], respReady := true, xferFault := true, intSt := 0xD, rintSt := 1,
            tuningActive := true }

/-- The start of D23 and D24 with `wait_for_reset line, 5` issued. -/
def ERwait (line : ResetLine) : State :=
  { ER with cmdPending := true, rxf := [0x33], xferFault := true,
            rstReq := ResetRequests.none.set true line, port := .waitForReset line 5 0 }

/-- `S0` with a frame in the latch. -/
def latched (f : Frame) (crcFail : Bool) : State :=
  { S0 with cmdLatch := f, cmdPending := true, cmdCrcFail := crcFail }

/-- The next state of an outcome. -/
def next? : Out → Option State
  | .next t => some t
  | .fault _ => none
  | .refused _ => none

/-- One field of the next state. -/
def got {α : Type} (o : Out) (f : State → α) : Option α := (next? o).map f

/-- The last result the caller received, and its buffer. -/
def State.last (s : State) : Option (Result × List Byte) :=
  s.results.getLast?.map fun c => (c.result, c.buf)

/-- The result of an immediate operation. -/
def result (o : Out) : Option Result := ((next? o).bind State.last).map Prod.fst

/-! ## Well-formedness smoke (R76): each check refuses a term outside its range -/

theorem smoke_reserved12To13 : (Instr.reserved12To13 0x11).wellFormed = false ∧
    (Instr.reserved12To13 0x14).wellFormed = false := by decide
theorem smoke_reserved14To17 : (Instr.reserved14To17 0x13).wellFormed = false ∧
    (Instr.reserved14To17 0x18).wellFormed = false := by decide
theorem smoke_reserved18To1F : (Instr.reserved18To1F 0x17).wellFormed = false ∧
    (Instr.reserved18To1F 0x20).wellFormed = false := by decide
theorem smoke_reserved20To3F : (Instr.reserved20To3F 0x1F).wellFormed = false ∧
    (Instr.reserved20To3F 0x40).wellFormed = false := by decide
theorem smoke_reserved40To7F : (Instr.reserved40To7F 0x3F).wellFormed = false ∧
    (Instr.reserved40To7F 0x80).wellFormed = false := by decide
theorem smoke_reserved80ToFF : (Instr.reserved80ToFF 0x7F).wellFormed = false := by decide

/-! ## Decoding: words written out from R73 to R76 and R61, R62 -/

/-- R75: 0x00 to 0x03. -/
theorem test_decode_lifecycle :
    decodeTableWord 8 0x00 = some .cardType ∧ decodeTableWord 8 0x01 = some .cardMode ∧
    decodeTableWord 8 0x02 = some .setupBus ∧ decodeTableWord 8 0x03 = some .init := by decide

/-- R75, R74: 0x04 to 0x08 with `A`, `B` and BUF. -/
theorem test_decode_dataEngine :
    decodeTableWord 40 0x0000000104 = some (.fifoReady 1) ∧
    decodeTableWord 72 0x000003E80000000005 = some (.waitForReset 0 1000) ∧
    decodeTableWord 40 0x0000003206 = some (.waitWhileBusy 50) ∧
    decodeTableWord 88 0xBBAA000000000000000007 = some (.readData [0xAA, 0xBB]) ∧
    decodeTableWord 104 0xEFBEADDE000000000000000008 =
      some (.writeData [0xDE, 0xAD, 0xBE, 0xEF]) := by decide

/-- R75, R74: 0x09 to 0x0F. -/
theorem test_decode_interrupts :
    decodeTableWord 72 0x000000010000000209 = some (.sendTuning 2 1) ∧
    decodeTableWord 8 0x0A = some .interrupt ∧
    decodeTableWord 40 0x800000100B = some (.setInterrupt 0x80000010) ∧
    decodeTableWord 8 0x0C = some .clearAllInterrupt ∧
    decodeTableWord 8 0x0D = some .responseInterrupt ∧
    decodeTableWord 40 0x000000040E = some (.setResponseInterrupt 4) ∧
    decodeTableWord 8 0x0F = some .clearAllResponseInterrupt := by decide

/-- R75, R74: 0x10, 0x11; the operand words are those of section 2.3. -/
theorem test_decode_codec :
    decodeTableWord 8 0x10 = some .readCommand ∧
    decodeTableWord 72 0x000010000000013511 = some (.writeResponse 53 true 0x1000) ∧
    decodeTableWord 72 0x90FF80000000003F11 = some (.writeResponse 0x3F false 0x90FF8000) ∧
    decodeTableWord 72 0x90FF8000FFFFFE3F11 = some (.writeResponse 0x3F false 0x90FF8000) := by
  decide

/-- R76: both ends of every reserved range. -/
theorem test_decode_reserved :
    decodeTableWord 8 0x12 = some (.reserved12To13 0x12) ∧
    decodeTableWord 8 0x13 = some (.reserved12To13 0x13) ∧
    decodeTableWord 8 0x14 = some (.reserved14To17 0x14) ∧
    decodeTableWord 8 0x17 = some (.reserved14To17 0x17) ∧
    decodeTableWord 8 0x18 = some (.reserved18To1F 0x18) ∧
    decodeTableWord 8 0x1F = some (.reserved18To1F 0x1F) ∧
    decodeTableWord 8 0x20 = some (.reserved20To3F 0x20) ∧
    decodeTableWord 8 0x3F = some (.reserved20To3F 0x3F) ∧
    decodeTableWord 8 0x40 = some (.reserved40To7F 0x40) ∧
    decodeTableWord 8 0x7F = some (.reserved40To7F 0x7F) ∧
    decodeTableWord 8 0x80 = some (.reserved80ToFF 0x80) ∧
    decodeTableWord 8 0xFF = some (.reserved80ToFF 0xFF) := by decide

/-- R61, R62: the frames of sections 2.2 and 2.3; the last two fit neither format (section 2.4). -/
theorem test_decode_frames :
    decodeTableWord 48 0x7594000004BB = some (.cmd48 53 0x94000004 0x5D) ∧
    decodeTableWord 48 0x3F90FF8000FF = some (.rsp48 0x3F 0x90FF8000 0x7F) ∧
    decodeTableWord 48 0x45000000005A = none ∧
    decodeTableWord 48 0xC50000000061 = none := by decide

/-- Section 2.3: `A` of `write_response`, and the frame `cmd(53, 0x94000004)`. -/
theorem test_encode :
    encode (.writeResponse 53 true 0x1000) = .request ⟨0x11, 0x135, 0x1000, []⟩ ∧
    encode (.cmd48 53 0x94000004 0x5D) = .frame 0x7594000004BB ∧
    encode (.rsp48 5 0 0x67) = .frame 0x0500000000CF := by decide

/-! ## The CRC and the response frame -/

set_option maxRecDepth 20000 in
/-- Sections 2.2 and 2.3; the rows of indices 0, 8, 17 and 55 are the published CRC bytes. -/
theorem test_crc7 :
    crc7 0x4000000000 = 0x4A ∧ crc7 0x48000001AA = 0x43 ∧ crc7 0x5100000000 = 0x2A ∧
    crc7 0x7700000000 = 0x32 ∧ crc7 0x7594000004 = 0x5D ∧ crc7 0x7FFFFFFFFF = 0x0C := by decide

set_option maxRecDepth 20000 in
/-- Section 2.3, with and without CRC. -/
theorem test_encodeResponse :
    encodeResponse 0x3F 0x90FF8000 false = 0x3F90FF8000FF ∧
    encodeResponse 0x3F 0xFFFFFFFF true = 0x3FFFFFFFFF8D ∧
    encodeResponse 53 0x00001000 true = 0x35000010005B := by decide

/-! ## One step per instruction -/

/-- L1, L3. -/
theorem test_cardType : result (exec .cardType P0) = some (.cardType .sd) ∧
    result (exec .cardType ER) = some (.cardType .sd) := by decide

/-- L2. -/
theorem test_cardMode : result (exec .cardMode P0) = some (.cardMode .sdio) := by decide

/-- L4, L8. -/
theorem test_setupBus : result (exec .setupBus P0) = some (.err .general) ∧
    got (exec .setupBus { S0 with busReady := false }) State.busReady = some true := by decide

/-- L5, L11. -/
theorem test_init : got (exec .init P0) (fun t => (t.phase, t.intSt, t.cmdLatch, t.respReg)) =
      some (.standby, 0, 0, 0) ∧
    result (exec .init (CP 5)) = some (.err .general) := by decide

/-- L12. -/
theorem test_init_from_error :
    got (exec .init ERfull) (fun t => (t.phase, t.busReady, t.rxf)) = some (.standby, false, []) ∧
    got (exec .init ERfull) (fun t => (t.respReady, t.xferFault, t.intSt, t.rintSt)) =
      some (false, false, 0, 0) := by decide

/-- D1, D3. -/
theorem test_fifoReady_read : result (exec (.fifoReady 0) S0) = some (.ok (.bool false)) ∧
    result (exec (.fifoReady 0) { S0 with rxf := [0x11] }) = some (.ok (.bool true)) := by decide

/-- D4, D5, D6, X2. -/
theorem test_fifoReady_write :
    result (exec (.fifoReady 1)
      { S0 with params := { Params.vectors with fifoDepth := 2 }, txf := [0x10, 0x11] }) =
        some (.ok (.bool false)) ∧
    result (exec (.fifoReady 2) S0) = some (.err .general) ∧
    result (exec (.fifoReady 0) ER) = some (.err .general) ∧
    result (exec (.fifoReady 7) P0) = some (.err .general) := by decide

/-- D22, the issue step; D28. -/
theorem test_waitForReset :
    got (exec (.waitForReset 0 1000) ER) (fun t => (t.port, t.rstReq)) =
      some (.waitForReset .all 1000 0, ⟨true, false, false⟩) ∧
    result (exec (.waitForReset 3 10) S0) = some (.err .general) := by decide

/-- D25, D27. -/
theorem test_poll_waitForReset :
    got (runEnv .poll { S0 with port := .waitForReset .cmd 2 2, rstReq := ⟨false, true, false⟩ })
      (fun t => (State.last t, t.phase, t.rstReq.cmd)) =
      some (some (.err .general, []), .error, false) ∧
    got (runEnv .poll { S0 with port := .waitForReset .cmd 0 0 })
      (fun t => (State.last t, t.phase)) = some (some (.ok .unit, []), .standby) := by decide

/-- D20, the issue step; D21. -/
theorem test_waitWhileBusy :
    got (exec (.waitWhileBusy 100) RR) State.port = some (.waitWhileBusy 100 0) ∧
    result (exec (.waitWhileBusy 10) ER) = some (.err .general) := by decide

/-- D18, D19. -/
theorem test_poll_waitWhileBusy :
    got (runEnv .poll { S0 with port := .waitWhileBusy 0 0 }) State.last =
      some (some (.ok .unit, [])) ∧
    got (runEnv .poll { RR with port := .waitWhileBusy 0 0 }) (fun t => (State.last t, t.phase)) =
      some (some (.err .general, []), .error) := by decide

/-- D9, D16. -/
theorem test_readData :
    got (exec (.readData []) { DT with xferFault := true })
      (fun t => (State.last t, t.phase, t.xferFault)) =
      some (some (.ok .unit, []), .standby, true) ∧
    got (exec (.readData [0x55]) S0) State.last = some (some (.err .general, [0x55])) := by decide

/-- D7 at its second POLL; D13 at its third. -/
theorem test_poll_readData :
    got (runEnv .poll { DT with port := .readData [0xAA, 0x00] 1 0, rxf := [0xBB] })
      (fun t => (State.last t, t.phase, t.rxf)) =
      some (some (.ok .unit, [0xAA, 0xBB]), .standby, []) ∧
    got (runEnv .poll { DT with port := .readData [0x11, 0x22, 0x77] 2 0, rxf := [0x33],
                                xferFault := true })
      (fun t => (State.last t, t.phase, t.rxf)) =
      some (some (.err .general, [0x11, 0x22, 0x77]), .error, [0x33]) := by decide

/-- D10, D17. -/
theorem test_writeData :
    got (exec (.writeData []) DT) (fun t => (State.last t, t.phase)) =
      some (some (.ok .unit, []), .standby) ∧
    result (exec (.writeData [0x00]) (CP 53)) = some (.err .general) := by decide

/-- D14 at its first POLL; D15 at its third. -/
theorem test_poll_writeData :
    got (runEnv .poll { DT with port := .writeData [0xDE, 0xAD] 0 0 }) (fun t => (t.port, t.txf)) =
      some (.writeData [0xDE, 0xAD] 1 0, [0xDE]) ∧
    got (runEnv .poll { DT with params := ⟨2, some 3, [], []⟩, txf := [0x01, 0x02],
                                port := .writeData [0xFF, 0xFE] 0 3 })
      (fun t => (State.last t, t.phase, t.txf)) =
      some (some (.err .general, [0xFF, 0xFE]), .error, [0x01, 0x02]) := by decide

/-- I12, I13, I16 to I18. -/
theorem test_sendTuning :
    got (exec (.sendTuning 1 0) S0) (fun t => (t.tuningActive, t.tuningMode, t.tuningWidth)) =
      some (true, .sdr104, .bits4) ∧
    result (exec (.sendTuning 1 0) { S0 with tuningActive := true }) = some (.err .general) ∧
    result (exec (.sendTuning 3 0) S0) = some (.err .general) ∧
    result (exec (.sendTuning 0 2) S0) = some (.err .general) ∧
    result (exec (.sendTuning 0 1) { S0 with busReady := false }) = some (.err .general) := by decide

/-- I1, I10. -/
theorem test_interrupt : result (exec .interrupt S0) = some (.ok (.word 0)) ∧
    result (exec .interrupt P0) = some (.err .general) := by decide

/-- I3, I4. -/
theorem test_setInterrupt :
    got (exec (.setInterrupt 0x80000010) { S0 with intSt := 1 }) State.intSt = some 0x80000011 ∧
    got (exec (.setInterrupt 0) { S0 with intSt := 0x1F }) State.intSt = some 0x1F := by decide

/-- I5, I9. -/
theorem test_clearAllInterrupt :
    got (exec .clearAllInterrupt { S0 with intSt := 0x1F, rintSt := 7 })
      (fun t => (t.intSt, t.rintSt)) = some (0, 7) := by decide

/-- I7, I11. -/
theorem test_responseInterrupt :
    result (exec .responseInterrupt { ER with rintSt := 3 }) = some (.ok (.word 3)) := by decide

/-- I8. -/
theorem test_setResponseInterrupt :
    got (exec (.setResponseInterrupt 4) S0) (fun t => (t.rintSt, t.intSt)) = some (4, 0) := by decide

/-- I9. -/
theorem test_clearAllResponseInterrupt :
    got (exec .clearAllResponseInterrupt { S0 with intSt := 0x1F, rintSt := 7 })
      (fun t => (t.intSt, t.rintSt)) = some (0x1F, 0) := by decide

/-- C3, the issue step; L7. -/
theorem test_readCommand : got (exec .readCommand S0) State.port = some (.readCommand 0) ∧
    result (exec .readCommand { S0 with busReady := false }) = some (.err .general) := by decide

/-- Section 2.4: a legal frame, a bad CRC before an illegal index, a wrong end bit. -/
theorem test_poll_readCommand :
    got (runEnv .poll { latched 0x7594000004BB false with port := .readCommand 0 })
      (fun t => (State.last t, t.phase, t.curIndex, t.cmdPending)) =
      some (some (.ok (.command ⟨53, 0x94000004, 0x5D⟩), []), .commandPending, 53, false) ∧
    got (runEnv .poll { latched 0x5100000000FF true with port := .readCommand 0 })
      (fun t => (State.last t, t.phase, t.cmdCrcFail)) =
      some (some (.err .crc, []), .error, false) ∧
    got (runEnv .poll { latched 0x45000000005A false with port := .readCommand 0 })
      (fun t => (State.last t, t.phase)) =
      some (some (.err .illegalCommand, []), .error) := by decide

set_option maxRecDepth 20000 in
/-- C8, C12, C13, C11. -/
theorem test_writeResponse :
    got (exec (.writeResponse 0x3F false 0x90FF8000) (CP 5))
      (fun t => (t.respReg, t.respReady, t.phase)) =
      some (0x3F90FF8000FF, true, .responseReady) ∧
    got (exec (.writeResponse 53 true 0x1000) (CP 53)) (fun t => (t.respReg, t.phase)) =
      some (0x35000010005B, .dataTransfer) ∧
    got (exec (.writeResponse 53 true 0x1000) (CP 52)) State.phase = some .responseReady ∧
    result (exec (.writeResponse 5 true 0) S0) = some (.err .general) := by decide

/-- L14, L15, X1. -/
theorem test_reserved :
    result (exec (.reserved12To13 0x12) S0) = some (.err .unimplemented) ∧
    result (exec (.reserved40To7F 0x40) P0) = some (.err .unimplemented) ∧
    result (exec (.reserved80ToFF 0xFF) P0) = some (.err .unimplemented) := by decide

set_option maxRecDepth 20000 in
/-- C1; the frame of S7; H3. -/
theorem test_cmd48 :
    got (exec (.cmd48 5 0 0x2D) S0)
      (fun t => (t.cmdLatch, t.cmdPending, t.cmdCrcFail, t.rintSt, t.phase)) =
      some (0x45000000005B, true, false, 1, .standby) ∧
    got (exec (.cmd48 5 0 0x2C) S0) (fun t => (t.cmdCrcFail, t.rintSt)) = some (true, 3) ∧
    got (exec (.cmd48 5 0 0x2D) (CP 5)) State.cmdPending = some false := by decide

set_option maxRecDepth 20000 in
/-- Section 2.4, the rows 0x0500000000CF and 0x05000000005B. -/
theorem test_rsp48 :
    got (exec (.rsp48 5 0 0x67) S0) (fun t => (t.cmdLatch, t.cmdCrcFail)) =
      some (0x0500000000CF, false) ∧
    got (exec (.rsp48 5 0 0x2D) S0) (fun t => (t.cmdLatch, t.cmdCrcFail)) =
      some (0x05000000005B, true) := by decide

/-! ## The other agents -/

/-- C10, C14, H9. -/
theorem test_takeResponse :
    got (runEnv .takeResponse { RR with rintSt := 1 })
      (fun t => (t.respReady, t.rintSt, t.phase, t.hostFrames)) =
      some (false, 5, .standby, [0x3F90FF8000FF]) ∧
    got (runEnv .takeResponse { DT with respReady := true }) State.phase = some .dataTransfer ∧
    got (runEnv .takeResponse { ER with respReady := true }) State.phase = some .error := by decide

/-- H4, H5, H6, H7, H10. -/
theorem test_hostFifo :
    got (runEnv (.pushByte 3) { S0 with params := { Params.vectors with fifoDepth := 2 },
                                        rxf := [1, 2] }) State.rxf = some [1, 2] ∧
    got (runEnv .popByte S0) State.intSt = some 0 ∧
    got (runEnv .popByte { S0 with txf := [0xBE, 0xEF] }) (fun t => (t.txf, t.intSt)) =
      some ([0xEF], 0) ∧
    got (runEnv .popByte { S0 with txf := [0xEF] }) (fun t => (t.txf, t.intSt)) = some ([], 2) ∧
    got (runEnv (.pushByte 0x55) ER) (fun t => (t.rxf, t.intSt)) = some ([0x55], 1) := by decide

/-- H8, I14. -/
theorem test_busFault_tuningDone :
    got (runEnv .busFault S0) State.xferFault = some false ∧
    got (runEnv .busFault DT) (fun t => (t.xferFault, t.intSt)) = some (true, 4) ∧
    got (runEnv .tuningDone { S0 with tuningActive := true })
      (fun t => (t.tuningActive, t.intSt)) = some (false, 0x10) := by decide

/-- D23, D24, D30. -/
theorem test_hwReset :
    got (runEnv (.hwReset .cmd) (ERwait .cmd)) (fun t => (t.phase, t.cmdPending, t.intSt)) =
      some (.standby, false, 8) ∧
    got (runEnv (.hwReset .cmd) (ERwait .cmd)) (fun t => (t.rxf, t.xferFault)) =
      some ([0x33], true) ∧
    got (runEnv (.hwReset .data) (ERwait .data)) (fun t => (t.phase, t.cmdPending, t.intSt)) =
      some (.standby, true, 8) ∧
    got (runEnv (.hwReset .data) (ERwait .data)) (fun t => (t.rxf, t.xferFault)) =
      some ([], false) ∧
    got (runEnv (.hwReset .data) S0) State.intSt = some 0 := by decide

/-! ## The step -/

set_option maxRecDepth 20000 in
/-- A table word is the very next instruction, from reset too (log 12). -/
theorem test_withFetchWord :
    result (step (State.reset.withFetchWord 8 0x00)) = some (.cardType .sd) ∧
    result (step (State.reset.withFetchWord 8 0x02)) = some (.err .general) ∧
    got (step (S0.withFetchWord 48 0x45000000005B)) State.cmdLatch = some 0x45000000005B := by decide

/-! ## The base states meet the invariants -/

/-- R4: the vectors' parameters meet their constraints. -/
theorem vectors_valid : Params.vectors.valid := by
  refine ⟨by decide, fun arg => ?_, fun index h => ?_⟩
  · simp [Params.vectors, Params.legalCmd, CmdPattern.accepts]
  · obtain rfl : index = 53 := by simpa [Params.isDataCmd, Params.vectors] using h
    exact ⟨0, by decide⟩

/-- R70: a data command that is not legal is no parameter value; one legal for some argument is. -/
theorem test_dataCmd_must_be_legal :
    ¬ ({ Params.vectors with dataCmds := [53, 54] } : Params).valid ∧
    legalIndex [⟨53, 0x80000000, 0x80000000⟩] 53 = true ∧
    legalIndex [⟨53, 0x7FFFFFFF, 0x80000000⟩] 53 = false := by
  refine ⟨fun h => ?_, by decide, by decide⟩
  have := (legalIndex_iff _ 54).mpr (h.dataLegal 54 (by decide))
  exact absurd this (by decide)

set_option maxRecDepth 20000 in
/-- R85: frames of the table 2.2 `cmd(i, a)`. -/
theorem test_cmd : cmd 5 0 = 0x45000000005B ∧ cmd 53 0x94000004 = 0x7594000004BB := by decide

/-- `P0`, an idle machine with nothing pending. -/
theorem inv_P0 : P0.Inv := by
  refine ⟨⟨?_, ?_, ?_, ?_, ?_, ?_, ?_, ?_, ?_, ?_, ?_, ?_, ?_⟩, ⟨vectors_valid, ?_, ?_, ?_, ?_⟩⟩ <;>
    simp [P0]

theorem inv_S0 : S0.Inv := by
  refine ⟨⟨?_, ?_, ?_, ?_, ?_, ?_, ?_, ?_, ?_, ?_, ?_, ?_, ?_⟩, ⟨vectors_valid, ?_, ?_, ?_, ?_⟩⟩ <;>
    simp [S0, P0]

theorem inv_DT : DT.Inv := by
  refine ⟨⟨?_, ?_, ?_, ?_, ?_, ?_, ?_, ?_, ?_, ?_, ?_, ?_, ?_⟩, ⟨vectors_valid, ?_, ?_, ?_, ?_⟩⟩ <;>
    simp [DT, S0, P0]

theorem inv_ER : ER.Inv := by
  refine ⟨⟨?_, ?_, ?_, ?_, ?_, ?_, ?_, ?_, ?_, ?_, ?_, ?_, ?_⟩, ⟨vectors_valid, ?_, ?_, ?_, ?_⟩⟩ <;>
    simp [ER, S0, P0]

/-- A `wait_while_busy 3` in flight. -/
def WB : State := { S0 with port := .waitWhileBusy 3 0 }

theorem inv_WB : WB.Inv := by
  refine ⟨⟨?_, ?_, ?_, ?_, ?_, ?_, ?_, ?_, ?_, ?_, ?_, ?_, ?_⟩, ⟨vectors_valid, ?_, ?_, ?_, ?_⟩⟩ <;>
    simp [WB, S0, P0]

/-! ## Witnesses: a state and operands that meet each obligation's hypotheses, clause by clause -/

theorem witness_DecodeEncodeAgree :
    (Instr.reserved12To13 0x13).wellFormed = true ∧
    (Instr.cmd48 63 0xFFFFFFFF 0x7F).wellFormed = true := by decide

theorem witness_DecodeEncodeBytesAgree :
    (Instr.reserved80ToFF 0xFF).wellFormed = true ∧
    (Instr.writeData [0xFF]).wellFormed = true := by decide

theorem witness_EncodeDecodeAgree :
    decodeFrame 0x45000000005B = .ok (.cmd48 5 0 0x2D) := rfl

theorem witness_FrameRejectedByName :
    (0xC50000000061 : Frame).getLsbD 47 = true ∧
    ((0x45000000005A : Frame).getLsbD 47 = false ∧ (0x45000000005A : Frame).getLsbD 0 = false) ∧
    ((0x45000000005B : Frame).getLsbD 0 = true ∧ (0x45000000005B : Frame).getLsbD 46 = true) ∧
    ((0x0500000000CF : Frame).getLsbD 0 = true ∧ (0x0500000000CF : Frame).getLsbD 46 = false) := by decide

set_option maxRecDepth 20000 in
theorem witness_CrcDetectsOneAndTwoBitErrors :
    crcBad 0x45000000005B = false ∧ 1 ≤ 1 ∧ 1 < 47 ∧ 47 ≤ 47 := by decide

theorem witness_IdentityQueriesAnswer :
    P0.port = .idle := by decide

theorem witness_SetupBusAnswers :
    (RR.port = .idle ∧ RR.phase ∈ [Phase.standby, .commandPending, .responseReady, .dataTransfer]) ∧
    (ER.port = .idle ∧ ER.phase ∉ [Phase.standby, .commandPending, .responseReady, .dataTransfer]) := by decide

theorem witness_InitAnswers :
    (P0.port = .idle ∧ P0.phase ∈ [Phase.uninitialized, .error]) ∧
    (DT.port = .idle ∧ DT.phase ∉ [Phase.uninitialized, .error]) := by decide

theorem witness_FifoReadyAnswers :
    (S0.port = .idle ∧ S0.phase ∈ [Phase.standby, .commandPending, .responseReady, .dataTransfer]) ∧
    (ER.port = .idle ∧ ER.phase ∉ [Phase.standby, .commandPending, .responseReady, .dataTransfer]) ∧ 1 < (2 : Word).toNat := by decide

theorem witness_WaitForResetIssues :
    (ER.port = .idle ∧ ER.phase ≠ .uninitialized) ∧
    (P0.port = .idle ∧ P0.phase = .uninitialized) ∧ 2 < (3 : Word).toNat := by decide

theorem witness_WaitWhileBusyIssues :
    (RR.port = .idle ∧ RR.phase ∈ [Phase.standby, .commandPending, .responseReady, .dataTransfer]) ∧
    (P0.port = .idle ∧ P0.phase ∉ [Phase.standby, .commandPending, .responseReady, .dataTransfer]) := by decide

theorem witness_ReadDataIssues :
    (DT.port = .idle ∧ DT.phase = .dataTransfer ∧ DT.busReady = true) ∧ ([] : List Byte) = [] ∧
    ([0] : List Byte) ≠ [] ∧ (S0.port = .idle ∧ S0.phase ≠ .dataTransfer) := by decide

theorem witness_WriteDataIssues :
    (DT.port = .idle ∧ DT.phase = .dataTransfer ∧ DT.busReady = true) ∧ ([] : List Byte) = [] ∧
    ([0] : List Byte) ≠ [] ∧ (ER.port = .idle ∧ ER.phase ≠ .dataTransfer) := by decide

theorem witness_SendTuningAnswers :
    (S0.port = .idle ∧ S0.phase ∈ [Phase.standby, .commandPending, .responseReady, .dataTransfer] ∧ S0.busReady = true ∧
      S0.tuningActive = false) ∧
    ((2 : Word), TuningMode.hs200) ∈ [((0 : Word), TuningMode.sdr50), (1, .sdr104), (2, .hs200)] ∧
    ((1 : Word), TuningWidth.bits8) ∈ [((0 : Word), TuningWidth.bits4), (1, .bits8)] ∧
    2 < (3 : Word).toNat ∧ 1 < (2 : Word).toNat := by decide

theorem witness_TransportInterruptAnswers :
    (ER.port = .idle ∧ ER.phase ≠ .uninitialized) ∧
    (P0.port = .idle ∧ P0.phase = .uninitialized) := by decide

theorem witness_ResponseInterruptAnswers :
    (S0.port = .idle ∧ S0.phase ≠ .uninitialized) ∧
    (P0.port = .idle ∧ P0.phase = .uninitialized) := by decide

theorem witness_ReadCommandIssues :
    (S0.port = .idle ∧ S0.phase = .standby ∧ S0.busReady = true) ∧
    (RR.port = .idle ∧ RR.phase ≠ .standby) := by decide

theorem witness_WriteResponseAnswers :
    ((CP 53).port = .idle ∧ (CP 53).phase = .commandPending ∧ (CP 53).busReady = true) ∧
    (S0.port = .idle ∧ S0.phase ≠ .commandPending) := by decide

theorem witness_ReservedAnswersUnimplemented :
    P0.port = .idle ∧ 0x12 ≤ (0x12 : Opsel).toNat := by decide

theorem witness_FramesAreLatched :
    (S0.phase = .standby ∧ S0.cmdPending = false ∧ S0.respReady = false) ∧
    (CP 5).phase ≠ .standby ∧ (latched 0 false).cmdPending = true ∧ RR.respReady = true := by decide

theorem witness_AnyFrameIsLatchedOrNothing :
    (S0.phase = .standby ∧ S0.cmdPending = false ∧ S0.respReady = false) ∧
    (CP 5).phase ≠ .standby ∧ (latched 0 false).cmdPending = true ∧ RR.respReady = true := by decide

theorem witness_PollReadCommandOutcomes :
    ∃ a b c d e : State,
    (a.port = .readCommand 0 ∧ a.cmdPending = true ∧ a.cmdCrcFail = true) ∧
    (b.port = .readCommand 0 ∧ b.cmdPending = true ∧ b.cmdCrcFail = false ∧
      b.cmdLatch.getLsbD 0 = false) ∧
    (c.port = .readCommand 0 ∧ c.cmdPending = true ∧ c.cmdCrcFail = false ∧
      (c.cmdLatch.getLsbD 47 = false ∧ c.cmdLatch.getLsbD 46 = true ∧ c.cmdLatch.getLsbD 0 = true ∧
        c.params.legalCmd (c.cmdLatch.extractLsb' 40 6) (c.cmdLatch.extractLsb' 8 32) = true)) ∧
    (d.port = .readCommand 100 ∧ d.cmdPending = false ∧ d.params.tCfgUs = some 100 ∧ 100 ≤ 100) ∧
    (e.port = .readCommand 99 ∧ e.cmdPending = false ∧ e.params.tCfgUs = some 100 ∧ 99 < 100) :=
  ⟨{ latched 0x450000000059 true with port := .readCommand 0 },
   { latched 0x45000000005A false with port := .readCommand 0 },
   { latched 0x45000000005B false with port := .readCommand 0 },
   { S0 with port := .readCommand 100 }, { S0 with port := .readCommand 99 }, by decide⟩

theorem witness_PollReadDataOutcomes :
    ∃ a b c d e : State,
    (a.port = .readData [0, 0] 0 0 ∧ a.xferFault = true) ∧
    (b.port = .readData [0, 0] 1 0 ∧ b.xferFault = false ∧ b.rxf = [0xAA] ∧
      1 + 1 = ([0, 0] : List Byte).length) ∧
    (c.port = .readData [0, 0] 0 0 ∧ c.xferFault = false ∧ c.rxf = [0xAA] ∧
      0 + 1 < ([0, 0] : List Byte).length) ∧
    (d.port = .readData [0, 0] 0 100 ∧ d.xferFault = false ∧ d.rxf = [] ∧
      d.params.tCfgUs = some 100) ∧
    (e.port = .readData [0, 0] 0 99 ∧ e.xferFault = false ∧ e.rxf = [] ∧
      e.params.tCfgUs = some 100) :=
  ⟨{ DT with port := .readData [0, 0] 0 0, xferFault := true },
   { DT with port := .readData [0, 0] 1 0, rxf := [0xAA] },
   { DT with port := .readData [0, 0] 0 0, rxf := [0xAA] },
   { DT with port := .readData [0, 0] 0 100 }, { DT with port := .readData [0, 0] 0 99 }, by decide⟩

theorem witness_PollWriteDataOutcomes :
    ∃ a b c d e : State,
    (a.port = .writeData [1, 2] 0 0 ∧ a.xferFault = true) ∧
    (b.port = .writeData [1, 2] 1 0 ∧ ([1, 2] : List Byte)[1]? = some 2 ∧ b.xferFault = false ∧
      b.txf.length < b.params.fifoDepth) ∧
    (c.port = .writeData [1, 2] 0 0 ∧ ([1, 2] : List Byte)[0]? = some 1 ∧ c.xferFault = false ∧
      c.txf.length < c.params.fifoDepth) ∧
    (d.port = .writeData [1, 2] 0 100 ∧ d.xferFault = false ∧ d.params.fifoDepth ≤ d.txf.length ∧
      d.params.tCfgUs = some 100) ∧
    (e.port = .writeData [1, 2] 0 99 ∧ e.xferFault = false ∧ e.params.fifoDepth ≤ e.txf.length ∧
      e.params.tCfgUs = some 100) :=
  ⟨{ DT with port := .writeData [1, 2] 0 0, xferFault := true },
   { DT with port := .writeData [1, 2] 1 0, txf := [1, 2, 3] },
   { DT with port := .writeData [1, 2] 0 0 },
   { DT with port := .writeData [1, 2] 0 100, txf := [1, 2, 3, 4] },
   { DT with port := .writeData [1, 2] 0 99, txf := [1, 2, 3, 4] }, by decide⟩

theorem witness_PollWaitWhileBusyOutcomes :
    ∃ a b c : State,
    (a.port = .waitWhileBusy 0 0 ∧ a.respReady = false ∧ a.tuningActive = false ∧
      a.txf.length = 0) ∧
    (b.port = .waitWhileBusy 3 3 ∧ b.respReady = true) ∧
    (c.port = .waitWhileBusy 3 2 ∧ c.respReady = true) :=
  ⟨{ S0 with port := .waitWhileBusy 0 0 }, { RR with port := .waitWhileBusy 3 3 },
   { RR with port := .waitWhileBusy 3 2 }, by decide⟩

theorem witness_PollWaitForResetOutcomes :
    ∃ a b c : State,
    (a.port = .waitForReset .cmd 0 0 ∧ a.rstReq.get .cmd = false) ∧
    (b.port = .waitForReset .cmd 2 2 ∧ b.rstReq.get .cmd = true) ∧
    (c.port = .waitForReset .cmd 2 1 ∧ c.rstReq.get .cmd = true) :=
  ⟨{ S0 with port := .waitForReset .cmd 0 0 },
   { S0 with port := .waitForReset .cmd 2 2, rstReq := ⟨false, true, false⟩ },
   { S0 with port := .waitForReset .cmd 2 1, rstReq := ⟨false, true, false⟩ }, by decide⟩

theorem witness_HostTakeResponseEffect :
    RR.respReady = true ∧ S0.respReady = false := by decide

theorem witness_HostFifoEffect :
    (S0.phase ≠ .uninitialized ∧ S0.rxf.length < S0.params.fifoDepth) ∧
    P0.phase = .uninitialized ∧ ({ S0 with txf := [0xBE] } : State).txf = 0xBE :: [] ∧ S0.txf = [] := by decide

theorem witness_FaultAndTuningDoneEffect :
    DT.phase = .dataTransfer ∧ S0.phase ≠ .dataTransfer ∧ ERfull.tuningActive = true ∧
    S0.tuningActive = false := by decide

theorem witness_ScopedResetEffect :
    (ERwait .cmd).rstReq.cmd = true ∧ (ERwait .data).rstReq.data = true ∧
    S0.rstReq.get .cmd = false := by decide

theorem witness_FullResetEffect :
    (ERwait .all).rstReq.all = true := by decide

theorem witness_TickEffect :
    S0.port = .idle ∧ ({ S0 with port := .readCommand 0 } : State).port = .readCommand 0 ∧
    ({ DT with port := .readData [0] 0 0 } : State).port = .readData [0] 0 0 ∧
    ({ DT with port := .writeData [0] 0 0 } : State).port = .writeData [0] 0 0 ∧
    WB.port = .waitWhileBusy 3 0 ∧ (ERwait .cmd).port = .waitForReset .cmd 5 0 := by decide

theorem witness_UninitializedIsQuiescent :
    P0.Inv ∧ P0.phase = .uninitialized ∧ P0.port = .idle := ⟨inv_P0, rfl, rfl⟩

theorem witness_ReportAndInterruptFrame :
    (∃ t, exec .interrupt S0 = .next t) ∧ (∃ t, exec (.setInterrupt 1) S0 = .next t) ∧
    ∃ t, exec .clearAllResponseInterrupt S0 = .next t := ⟨⟨_, rfl⟩, ⟨_, rfl⟩, ⟨_, rfl⟩⟩

theorem witness_BlockingIssueFrame :
    (∃ t, exec .readCommand S0 = .next t) ∧ (∃ t, exec (.waitForReset 2 5) S0 = .next t) ∧
    ∃ t, exec (.readData [0]) DT = .next t := ⟨⟨_, rfl⟩, ⟨_, rfl⟩, ⟨_, rfl⟩⟩

theorem witness_ControlOperationsFrame :
    (∃ t, exec .setupBus S0 = .next t) ∧ (∃ t, exec (.sendTuning 0 0) S0 = .next t) ∧
    (∃ t, exec (.writeResponse 5 true 0) (CP 5) = .next t) ∧ ∃ t, exec .init P0 = .next t := ⟨⟨_, rfl⟩, ⟨_, rfl⟩, ⟨_, rfl⟩, ⟨_, rfl⟩⟩

theorem witness_FrameInstructionsFrame :
    (∃ t, exec (.cmd48 5 0 0x2D) S0 = .next t) ∧ ∃ t, exec (.rsp48 5 0 0x67) S0 = .next t := ⟨⟨_, rfl⟩, ⟨_, rfl⟩⟩

theorem witness_StepRunsTheNextInput :
    ∃ a b : State, (a.inputs = .request ⟨0x03, 0, 0, []⟩ :: [] ∧ a.port = .idle) ∧
    (b.inputs = .env (.sendCommand 0x45000000005B) :: [] ∧
      decodeFrame 0x45000000005B = .ok (.cmd48 5 0 0x2D)) ∧ (Instr.cmd48 5 0 0x2D).wellFormed = true :=
  ⟨{ P0 with inputs := [.request ⟨0x03, 0, 0, []⟩] },
   { S0 with inputs := [.env (.sendCommand 0x45000000005B)] }, ⟨rfl, rfl⟩, ⟨rfl, rfl⟩, rfl⟩

theorem witness_RequestWaitsWhileInFlight :
    ∃ s t : State, s.inputs = .request ⟨0x0A, 0, 0, []⟩ :: [] ∧ s.port ≠ .idle ∧ step s = .next t ∧
    isDriverInstr .interrupt = true := by
  have h : ({ WB with inputs := [.request ⟨0x0A, 0, 0, []⟩] } : State).Inv := inv_WB.fetch _ _
  obtain ⟨t, ht⟩ := (h.fetch [.request ⟨0x0A, 0, 0, []⟩] 2).env_next (Config.freeStep 1)
  exact ⟨{ WB with inputs := [.request ⟨0x0A, 0, 0, []⟩] }, t, rfl, by decide,
    (step_blocked rfl (by decide)).trans ht, rfl⟩

theorem witness_MisuseChangesNothing :
    isDriverInstr (.readData [1]) = true ∧ S0.port = .idle ∧ legal (.readData [1]) S0 = false := by decide

theorem witness_LegalIssueIsNoError :
    isDriverInstr (.readData [1]) = true ∧ isReserved (.readData [1]) = false ∧ DT.port = .idle ∧
    legal (.readData [1]) DT = true := by decide

theorem witness_PhaseWrittenOnlyByTable :
    ∃ s t : State, s.Inv ∧ step s = .next t ∧ t.phase ≠ s.phase ∧
    PhaseRow s s.nextInput .standby :=
  ⟨{ P0 with inputs := [.request ⟨0x03, 0, 0, []⟩] }, _, inv_P0.fetch _ _, rfl, by decide,
   .t1 ⟨0x03, 0, 0, []⟩ rfl (.inl rfl)⟩

theorem witness_ErrorsOnlyFromTable :
    ∃ s t : State, s.Inv ∧ step s = .next t ∧ t.results = s.results ++ [⟨.err .general, []⟩] ∧
    ErrorRow s s.nextInput .general false :=
  ⟨{ S0 with inputs := [.request ⟨0x04, 2, 0, []⟩] }, _, inv_S0.fetch _ _, rfl, rfl,
   .e1e2 ⟨0x04, 2, 0, []⟩ rfl rfl⟩

theorem witness_ErrorLeftByFourSteps :
    ∃ s t : State, s.Inv ∧ s.phase = .error ∧ step s = .next t ∧ t.phase ≠ .error :=
  ⟨{ ER with inputs := [.request ⟨0x03, 0, 0, []⟩] }, _, inv_ER.fetch _ _, rfl, rfl, by decide⟩

set_option maxRecDepth 20000 in
theorem witness_CodecRegistersWrittenOnlyBy :
    (∃ s t : State, step s = .next t ∧ t.busReady ≠ s.busReady) ∧
    (∃ s t : State, step s = .next t ∧ t.cmdLatch ≠ s.cmdLatch) ∧
    (∃ s t : State, step s = .next t ∧ t.curIndex ≠ s.curIndex) ∧
    ∃ s t : State, step s = .next t ∧ t.respReg ≠ s.respReg :=
  ⟨⟨{ S0 with busReady := false, inputs := [.request ⟨0x02, 0, 0, []⟩] }, _, rfl, by decide⟩,
   ⟨{ S0 with inputs := [.env (.sendCommand 1)] }, _, rfl, by decide⟩,
   ⟨{ latched 0x45000000005B false with port := .readCommand 0, inputs := [.env .poll] }, _, rfl,
    by decide⟩,
   ⟨{ CP 5 with inputs := [.request ⟨0x11, 0x3F, 0, []⟩] }, _, rfl, by decide⟩⟩

theorem witness_DataFlagsWrittenOnlyBy :
    (∃ s t : State, step s = .next t ∧ s.xferFault = true ∧ t.xferFault = false) ∧
    (∃ s t : State, step s = .next t ∧ s.xferFault = false ∧ t.xferFault = true) ∧
    (∃ s t : State, step s = .next t ∧ s.tuningActive = false ∧ t.tuningActive = true) ∧
    ∃ s t : State, step s = .next t ∧ s.tuningActive = true ∧ t.tuningActive = false :=
  ⟨⟨{ ERwait .data with inputs := [.env (.hwReset .data)] }, _, rfl, rfl, rfl⟩,
   ⟨{ DT with inputs := [.env .busFault] }, _, rfl, rfl, rfl⟩,
   ⟨{ S0 with inputs := [.request ⟨0x09, 2, 1, []⟩] }, _, rfl, rfl, rfl⟩,
   ⟨{ ERfull with inputs := [.env .tuningDone] }, _, rfl, rfl, rfl⟩⟩

theorem witness_InterruptBitsAreSticky :
    (∃ s t : State, step s = .next t ∧ s.intSt.getLsbD 31 = true ∧ t.intSt.getLsbD 31 = false) ∧
    ∃ s t : State, step s = .next t ∧ s.rintSt.getLsbD 0 = true ∧ t.rintSt.getLsbD 0 = false :=
  ⟨⟨{ S0 with intSt := 0x80000000, inputs := [.request ⟨0x0C, 0, 0, []⟩] }, _, rfl, by decide⟩,
   ⟨{ S0 with rintSt := 1, inputs := [.request ⟨0x0F, 0, 0, []⟩] }, _, rfl, by decide⟩⟩

theorem witness_PendingBitsCauseNothing :
    (∃ s t : State, step s = .next t ∧ t.results = s.results ++ [⟨.ok (.word s.intSt), []⟩]) ∧
    ∃ (s : State) (f : Fault), step s = .fault f :=
  ⟨⟨{ S0 with intSt := 5, inputs := [.request ⟨0x0A, 0, 0, []⟩] }, _, rfl, rfl⟩,
   ⟨{ DT with rxf := [1], port := .readData [] 0 0, inputs := [.env .poll] }, .bufferIndex, rfl⟩⟩

theorem witness_StepKeepsInvariant :
    ∃ s t : State, s.Inv ∧ step s = .next t :=
  ⟨{ WB with inputs := [.env .tick] }, _, inv_WB.fetch _ _, rfl⟩

theorem witness_ReachableStatesMeetR35 :
    ∃ (inputs : List Input) (t : State),
    Host.Core.run Sys2Proof.core 2 { State.reset with inputs := inputs } = .next t ∧
    t.phase = .standby :=
  ⟨[.request ⟨0x03, 0, 0, []⟩, .request ⟨0x02, 0, 0, []⟩], _, rfl, rfl⟩

theorem witness_BlockNeverStops :
    DT.Inv := inv_DT

theorem witness_WriteDataRoundTrip :
    ∃ s t : State, s.Inv ∧ s.port = .idle ∧ s.phase = .dataTransfer ∧
    s.inputs = .request ⟨0x08, 0, 0, [0xDE]⟩ :: [EnvStep.poll, .popByte].map .env ∧
    Host.Core.run Sys2Proof.core ([EnvStep.poll, .popByte].length + 1) s = .next t ∧
    t.results = s.results ++ [⟨.ok .unit, [0xDE]⟩] :=
  ⟨{ DT with inputs := [.request ⟨0x08, 0, 0, [0xDE]⟩, .env .poll, .env .popByte] }, _,
   inv_DT.fetch _ _, rfl, rfl, rfl, rfl, rfl⟩

theorem witness_ReadDataRoundTrip :
    ∃ s t : State, s.Inv ∧ s.port = .idle ∧ s.phase = .dataTransfer ∧
    s.inputs = .request ⟨0x07, 0, 0, [0]⟩ :: [EnvStep.pushByte 0x7E, .poll].map .env ∧
    Host.Core.run Sys2Proof.core ([EnvStep.pushByte 0x7E, .poll].length + 1) s = .next t ∧
    t.results = s.results ++ [⟨.ok .unit, [0x7E]⟩] :=
  ⟨{ DT with inputs := [.request ⟨0x07, 0, 0, [0]⟩, .env (.pushByte 0x7E), .env .poll] }, _,
   inv_DT.fetch _ _, rfl, rfl, rfl, rfl, rfl⟩

theorem witness_CommandRoundTrip :
    ∃ s : State, s.phase = .standby ∧ s.port = .idle ∧ s.busReady = true ∧ s.cmdPending = false ∧
    s.respReady = false ∧ s.params.legalCmd 5 0 = true ∧
    s.inputs = [.env (.sendCommand (cmd 5 0)), .request ⟨0x10, 0, 0, []⟩, .env .poll] :=
  ⟨{ S0 with inputs := [.env (.sendCommand (cmd 5 0)), .request ⟨0x10, 0, 0, []⟩, .env .poll] }, rfl, rfl, rfl, rfl, rfl, by decide, rfl⟩

theorem witness_FiniteTimeoutCompletes :
    ∃ (s : State) (before after : List EnvStep), s.Inv ∧ s.timeoutOf = some 3 ∧
    3 ≤ before.count .tick ∧ s.pollsLeft ≤ after.count .poll ∧
    s.inputs = (before ++ after).map .env :=
  ⟨{ WB with inputs := [.env .tick, .env .poll, .env .tick, .env (.pushByte 1), .env .tick,
      .env .tuningDone, .env .poll] }, [.tick, .poll, .tick, .pushByte 1, .tick],
   [.tuningDone, .poll], inv_WB.fetch _ _, rfl, by decide, by decide, rfl⟩

end Sys2Proof.Tests
end

/-! SUPPORT. What every step carries along, and that decoding inverts encoding. -/

section

namespace Sys2Proof

/-! ## Decoding inverts encoding (R73 to R76, R61, R62) -/

theorem opselBetween_iff (lo hi : Nat) (op : Opsel) :
    opselBetween lo hi op = true ↔ lo ≤ op.toNat ∧ op.toNat ≤ hi := by
  simp [opselBetween]

/-- R76: from 0x12 up every OPSEL is a reserved one. -/
theorem decodeRequest_of_reserved {r : Request} (h : 0x12 ≤ r.opsel.toNat) :
    decodeRequest r = decodeReserved r.opsel := by
  unfold decodeRequest
  split
  all_goals try omega
  rfl

/-- A reserved OPSEL inside a range that starts at 0x12 or above decodes to the row of that range. -/
theorem decode_plainRequest_reserved {lo hi : Nat} {op : Opsel} {i : Instr} (hlo : 0x12 ≤ lo)
    (h : opselBetween lo hi op = true)
    (hd : lo ≤ op.toNat → op.toNat ≤ hi → decodeReserved op = i) :
    decode (plainRequest op) = .ok i := by
  obtain ⟨h1, h2⟩ := (opselBetween_iff lo hi op).mp h
  exact congrArg Except.ok ((decodeRequest_of_reserved (hlo.trans h1)).trans (hd h1 h2))

/-- Decoding the encoding of a well-formed instruction gives it back, with every operand. -/
theorem decode_encode {i : Instr} (h : i.wellFormed = true) : decode (encode i) = .ok i := by
  cases i
  case writeResponse index withCrc payload =>
    show Except.ok (Instr.writeResponse _ _ _) = _
    rw [responseOperand_index, responseOperand_withCrc]
  case cmd48 index arg crc => simp [encode, decode, decodeFrame, commandFrame]
  case rsp48 index payload crc => simp [encode, decode, decodeFrame, responseFrame]
  case reserved12To13 op =>
    exact decode_plainRequest_reserved (by omega) h fun _ _ => by
      rw [decodeReserved, if_pos (by omega)]
  case reserved14To17 op =>
    exact decode_plainRequest_reserved (by omega) h fun _ _ => by
      rw [decodeReserved, if_neg (by omega), if_pos (by omega)]
  case reserved18To1F op =>
    exact decode_plainRequest_reserved (by omega) h fun _ _ => by
      rw [decodeReserved, if_neg (by omega), if_neg (by omega), if_pos (by omega)]
  case reserved20To3F op =>
    exact decode_plainRequest_reserved (by omega) h fun _ _ => by
      rw [decodeReserved, if_neg (by omega), if_neg (by omega), if_neg (by omega),
        if_pos (by omega)]
  case reserved40To7F op =>
    exact decode_plainRequest_reserved (by omega) h fun _ _ => by
      rw [decodeReserved, if_neg (by omega), if_neg (by omega), if_neg (by omega),
        if_neg (by omega), if_pos (by omega)]
  case reserved80ToFF op =>
    exact decode_plainRequest_reserved (by omega) h fun _ _ => by
      rw [decodeReserved, if_neg (by omega), if_neg (by omega), if_neg (by omega),
        if_neg (by omega), if_neg (by omega)]
  all_goals rfl

end Sys2Proof

namespace Sys2Proof.Machine

/-! ## No operation and no other agent writes the inputs or the parameters (log 1, log 4) -/

theorem DriverEffect.keeps_inputs_params {s t : State} {i : Instr} (h : DriverEffect s i t) :
    t.inputs = s.inputs ∧ t.params = s.params := by
  cases h <;> exact ⟨rfl, rfl⟩

theorem PollEffect.keeps_inputs_params {s t : State} (h : PollEffect s t) :
    t.inputs = s.inputs ∧ t.params = s.params := by
  cases h <;> exact ⟨rfl, rfl⟩

theorem EnvEffect.keeps_inputs_params {s t : State} {e : EnvStep} (h : EnvEffect s e t) :
    t.inputs = s.inputs ∧ t.params = s.params := by
  cases h
  case poll hp => exact hp.keeps_inputs_params
  all_goals exact ⟨rfl, rfl⟩

/-- R4: no step writes the parameters (log 4). -/
theorem step_params {s t : State} (h : step s = .next t) : t.params = s.params := by
  rcases step_effect h with ⟨_, _, _, _, _, hd⟩ | ⟨_, _, _, _, he⟩
  · exact hd.keeps_inputs_params.2
  · exact he.keeps_inputs_params.2

/-! ## The step -/

/-- From a state of the invariant a step answers: a request is issued only on an idle port, and every
step of another agent keeps inside the caller buffer. -/
theorem State.Inv.step_next {s : State} (h : s.Inv) : ∃ t, step s = .next t := by
  rcases step_cases s with ⟨r, rest, _, hp, _, hs⟩ | ⟨e, inputs, draws, _, hs⟩
  · rw [hs]
    exact exec_driver_idle (isDriverInstr_decodeRequest r) hp
  · rw [hs]
    exact (h.fetch inputs draws).env_next e

/-- A frame of one of the two formats runs as its row of the table. -/
theorem runEnv_sendCommand_of_decode {f : Frame} {i : Instr} (h : decodeFrame f = .ok i) (s : State) :
    runEnv (.sendCommand f) s = exec i s := by
  simp only [runEnv, sendFrame, h]

/-- A packet presented on an idle port is run by the very next step as the instruction it decodes to
(log 12). -/
theorem step_present {s : State} {p : Packet} {i : Instr} (hp : s.port = .idle)
    (h : decode p = .ok i) : step (s.present p) = exec i s := by
  cases p with
  | request r =>
    cases h
    rw [step_request (s := s.present (.request r)) rfl rfl, State.present, ← hp]
  | frame f => exact (step_env rfl).trans (runEnv_sendCommand_of_decode h s)

end Sys2Proof.Machine

end

/-! PROOFS. The statements of 00_scope.md. -/

section

namespace Sys2Proof.Proofs

open Sys2Proof.Machine

/-- Settles O56: the step of `State.Inv.step_next`, whose parameters `step_params` keeps. -/
theorem blockNeverStops : Obligations.BlockNeverStops := by
  intro s h
  obtain ⟨t, ht⟩ := h.step_next
  exact ⟨t, ht, step_params ht⟩

/-- Settles O41, by the input the step takes; the last clause is the round trip of `decode_encode`
through `step_present`. -/
theorem stepRunsTheNextInput : Obligations.StepRunsTheNextInput := by
  intro s rest
  refine ⟨fun r h hp => step_request h hp, fun f i h hd => ?_, fun e h => step_env h,
    fun i hw => step_present rfl (decode_encode hw)⟩
  exact (step_env h).trans (runEnv_sendCommand_of_decode hd _)

/-- Settles O42: the blocked step is a drawn step of another agent, and no such step touches the
inputs. -/
theorem requestWaitsWhileInFlight : Obligations.RequestWaitsWhileInFlight := by
  intro s t r rest hi hp
  refine ⟨⟨_, step_blocked hi hp⟩, fun ht => ?_, fun i hd => exec_driver_busy hd hp⟩
  rw [step_blocked hi hp] at ht
  exact (env_effect ht).keeps_inputs_params.1.trans hi

end Sys2Proof.Proofs

end

/-! SUPPORT. The invariant, write by write: for each group of fields a step writes, what has to hold for
R35 and `State.InvMore` to be kept. Only the clauses that look at the written fields are proved again. -/

section

namespace Sys2Proof.Machine

/-! ## Phases and reset lines -/

theorem Phase.ne_uninitialized_of_operational {p : Phase}
    (h : p.operational = true) : p ≠ .uninitialized := by
  rintro rfl
  cases h

/-- R114: `write_response` enters one of two phases. -/
theorem phaseAfterResponse_cases (s : State) :
    phaseAfterResponse s = .responseReady ∨ phaseAfterResponse s = .dataTransfer := by
  unfold phaseAfterResponse
  split
  · exact .inr rfl
  · exact .inl rfl

/-- R156: lines Cmd and Data leave the phase, or go to Standby. -/
theorem phaseAfterReset_eq {line : ResetLine} (hl : line ≠ .all) (p : Phase) :
    phaseAfterReset line p = p ∨ phaseAfterReset line p = .standby := by
  cases line
  case all => exact absurd rfl hl
  all_goals cases p <;> decide

/-- R156: after line Cmd no response is held. -/
theorem phaseAfterReset_cmd_ne (p : Phase) : phaseAfterReset .cmd p ≠ .responseReady := by
  cases p <;> decide

/-- The reset lines a withdrawal leaves asserted were asserted before. -/
theorem ResetRequests.get_of_withdrawn {q : ResetRequests} {line r : ResetLine}
    (h : (q.set false line).get r = true) : q.get r = true := by
  rw [ResetRequests.get_set] at h
  split at h
  · cases h
  · exact h

/-- With no line asserted before, an asserted line is the one just set. -/
theorem ResetRequests.eq_of_asserted {q : ResetRequests} {line r : ResetLine}
    (hq : ∀ r, q.get r = false) (h : (q.set true line).get r = true) : r = line := by
  simpa [hq] using h

end Sys2Proof.Machine

namespace Sys2Proof.Machine.State

variable {s t : State}

/-! ## What the clauses ask of one record, and of a cleared block -/

/-- Two states that agree on the fields the invariant looks at: `t` is `s` but for the others. -/
def AgreesWith (s t : State) : Prop :=
  t = { s with
    cmdLatch := t.cmdLatch, curIndex := t.curIndex, respReg := t.respReg,
    tuningMode := t.tuningMode, tuningWidth := t.tuningWidth, intSt := t.intSt,
    rintSt := t.rintSt, inputs := t.inputs, results := t.results, hostFrames := t.hostFrames,
    hostPopped := t.hostPopped, hostPushed := t.hostPushed, draws := t.draws }

/-- What the invariant asks of a record in `port` (R35 item 9 and `State.InvMore`), the reset lines
apart. -/
def Admits (s : State) : Port → Prop
  | .idle => True
  | .readCommand _ => s.phase = .standby ∧ s.busReady = true
  | .readData buf i _ => s.phase = .dataTransfer ∧ i < buf.length
  | .writeData buf i _ => s.phase = .dataTransfer ∧ i < buf.length
  | .waitWhileBusy _ _ => s.phase.operational = true
  | .waitForReset _ _ _ => True

theorem Admits.tick {p : Port} (h : s.Admits p) : s.Admits p.tick := by
  cases p <;> exact h

/-- In Uninitialized the phase admits only the idle port and `wait_for_reset`. -/
theorem Admits.of_uninitialized {p : Port} (h : s.Admits p) (hu : s.phase = .uninitialized) :
    p = .idle ∨ ∃ line timeoutUs elapsed, p = .waitForReset line timeoutUs elapsed := by
  cases p with
  | idle => exact .inl rfl
  | waitForReset line timeoutUs elapsed => exact .inr ⟨line, timeoutUs, elapsed, rfl⟩
  | waitWhileBusy timeoutUs elapsed =>
    exact absurd hu (Phase.ne_uninitialized_of_operational h)
  | readCommand elapsed => exact absurd (h.1.symm.trans hu) nofun
  | readData buf i elapsed => exact absurd (h.1.symm.trans hu) nofun
  | writeData buf i elapsed => exact absurd (h.1.symm.trans hu) nofun

/-- What ResponseReady admits is admitted in Standby. -/
theorem Admits.of_responseReady {p : Port} (h : s.Admits p) (hr : s.phase = .responseReady) :
    ({ s with phase := .standby } : State).Admits p := by
  cases p with
  | idle => trivial
  | waitForReset line timeoutUs elapsed => trivial
  | waitWhileBusy timeoutUs elapsed => rfl
  | readCommand elapsed => exact absurd (h.1.symm.trans hr) nofun
  | readData buf i elapsed => exact absurd (h.1.symm.trans hr) nofun
  | writeData buf i elapsed => exact absurd (h.1.symm.trans hr) nofun

/-- R35 item 2: what holds in Uninitialized. -/
def Clear (s : State) : Prop :=
  s.busReady = false ∧ s.cmdPending = false ∧ s.cmdCrcFail = false ∧ s.respReady = false ∧
  s.rxf = [] ∧ s.txf = [] ∧ s.xferFault = false ∧ s.tuningActive = false ∧
  ∀ r, s.rstReq.get r = false

/-- R156: what line All leaves is cleared. -/
theorem clear_resetAll (s : State) : s.resetAll.Clear :=
  ⟨rfl, rfl, rfl, rfl, rfl, rfl, rfl, rfl, ResetRequests.get_none⟩

/-- R33: the block is cleared at power-on. -/
theorem clear_reset : State.reset.Clear :=
  ⟨rfl, rfl, rfl, rfl, rfl, rfl, rfl, rfl, ResetRequests.get_allFalse⟩

namespace Inv

/-- A block that is not cleared is initialized. -/
theorem ne_uninitialized (h : s.Inv) (hc : ¬ s.Clear) : s.phase ≠ .uninitialized :=
  fun hu => hc (h.listed.uninitialized hu)

/-- Writing only fields the invariant does not look at keeps it. -/
theorem of_agrees (h : s.Inv) (ht : AgreesWith s t) : t.Inv := by
  rw [AgreesWith] at ht
  rw [ht]
  exact ⟨{ h.listed with }, { h.more with }⟩

/-- A cleared block in Uninitialized or Standby, with no operation in flight but `wait_for_reset`. -/
theorem of_clear (hv : s.params.valid) (hc : s.Clear)
    (hp : s.phase = .uninitialized ∨ s.phase = .standby)
    (hport : s.port = .idle ∨
      ∃ line timeoutUs elapsed, s.port = .waitForReset line timeoutUs elapsed) : s.Inv := by
  obtain ⟨-, hcp, hcf, -, hrx, htx, hxf, -, hreq⟩ := id hc
  have hne {p : Phase} (h1 : p ≠ .uninitialized) (h2 : p ≠ .standby) : s.phase ≠ p := by
    rcases hp with hp | hp <;> rw [hp]
    · exact h1.symm
    · exact h2.symm
  exact ⟨{
      fifoBounds := by simp [hrx, htx]
      uninitialized := fun _ => hc
      busReady := by rintro (hu | hu | hu) <;> exact absurd hu (hne nofun nofun)
      pendingPhase := fun ha => by simp [hcp] at ha
      crcFailPending := fun ha => by simp [hcf] at ha
      commandPending := fun hu => absurd hu (hne nofun nofun)
      responseReady := fun hu => absurd hu (hne nofun nofun)
      resetInFlight := fun r ha => by simp [hreq] at ha
      resetUnique := fun r _ ha => by simp [hreq] at ha
      portReadCommand := fun _ e => by simp [e] at hport
      portReadData := fun _ _ _ e => by simp [e] at hport
      portWriteData := fun _ _ _ e => by simp [e] at hport
      xferFault := fun ha => by simp [hxf] at ha },
    { params := hv
      pendingNoResponse := fun ha => by simp [hcp] at ha
      readCommandReady := fun _ e => by simp [e] at hport
      waitWhileBusyPhase := fun _ _ e => by simp [e] at hport
      uninitializedPort := fun _ => hport }⟩

/-! ## The flags and the FIFOs -/

theorem setBusReady (h : s.Inv) (hp : s.phase ≠ .uninitialized) :
    ({ s with busReady := true } : State).Inv :=
  ⟨{ h.listed with
      uninitialized := fun hu => absurd hu hp
      busReady := fun _ => rfl },
   { h.more with readCommandReady := fun _ _ => rfl }⟩

/-- R21, R22: both FIFOs may hold anything within the capacity once the block is initialized. -/
theorem setFifos (h : s.Inv) {rxf txf : List Byte} (hp : s.phase ≠ .uninitialized)
    (hr : rxf.length ≤ s.params.fifoDepth) (ht : txf.length ≤ s.params.fifoDepth) :
    ({ s with rxf := rxf, txf := txf } : State).Inv :=
  ⟨{ h.listed with
      fifoBounds := ⟨hr, ht⟩
      uninitialized := fun hu => absurd hu hp },
   { h.more with }⟩

/-- R21: the head of the receive FIFO is taken. -/
theorem takeRx (h : s.Inv) {b : Byte} {rest : List Byte} (hx : s.rxf = b :: rest) :
    ({ s with rxf := rest } : State).Inv :=
  h.setFifos (h.ne_uninitialized (by simp [Clear, hx]))
    (Nat.le_of_succ_le (by simpa [hx] using h.listed.fifoBounds.1)) h.listed.fifoBounds.2

/-- R22: the head of the transmit FIFO is taken. -/
theorem takeTx (h : s.Inv) {b : Byte} {rest : List Byte} (hx : s.txf = b :: rest) :
    ({ s with txf := rest } : State).Inv :=
  h.setFifos (h.ne_uninitialized (by simp [Clear, hx])) h.listed.fifoBounds.1
    (Nat.le_of_succ_le (by simpa [hx] using h.listed.fifoBounds.2))

/-- R21: a byte is put into a receive FIFO with room. -/
theorem putRx (h : s.Inv) (hp : s.phase ≠ .uninitialized)
    (hl : s.rxf.length < s.params.fifoDepth) (b : Byte) :
    ({ s with rxf := s.rxf ++ [b] } : State).Inv :=
  h.setFifos hp (by simpa using hl) h.listed.fifoBounds.2

/-- R22: a byte is put into a transmit FIFO with room. -/
theorem putTx (h : s.Inv) (hp : s.phase ≠ .uninitialized)
    (hl : s.txf.length < s.params.fifoDepth) (b : Byte) :
    ({ s with txf := s.txf ++ [b] } : State).Inv :=
  h.setFifos hp h.listed.fifoBounds.1 (by simpa using hl)

theorem setXferFault (h : s.Inv) (hp : s.phase ≠ .uninitialized) :
    ({ s with xferFault := true } : State).Inv :=
  ⟨{ h.listed with
      uninitialized := fun hu => absurd hu hp
      xferFault := fun _ => hp },
   { h.more with }⟩

theorem setTuningActive (h : s.Inv) {b : Bool} (hp : s.phase ≠ .uninitialized) :
    ({ s with tuningActive := b } : State).Inv :=
  ⟨{ h.listed with uninitialized := fun hu => absurd hu hp }, { h.more with }⟩

/-- R112: clearing both command flags. -/
theorem consumeLatch (h : s.Inv) : s.consumeLatch.Inv :=
  ⟨{ h.listed with
      uninitialized := fun hu => by
        obtain ⟨h1, -, -, h⟩ := h.listed.uninitialized hu
        exact ⟨h1, rfl, rfl, h⟩
      pendingPhase := nofun
      crcFailPending := nofun
      commandPending := fun hc => ⟨(h.listed.commandPending hc).1, rfl⟩ },
   { h.more with pendingNoResponse := nofun }⟩

/-- R150: latching a frame, with either outcome of the CRC check. -/
theorem latch (h : s.Inv) (hp : s.phase = .standby) (hr : s.respReady = false) (crcFail : Bool) :
    ({ s with cmdPending := true, cmdCrcFail := crcFail } : State).Inv :=
  ⟨{ h.listed with
      uninitialized := fun hu => absurd (hp.symm.trans hu) nofun
      pendingPhase := fun _ => .inl hp
      crcFailPending := fun _ => rfl
      commandPending := fun hc => absurd (hp.symm.trans hc) nofun },
   { h.more with pendingNoResponse := fun _ => hr }⟩

/-- R151, R156: `resp_ready` is cleared outside ResponseReady. -/
theorem clearRespReady (h : s.Inv) (hp : s.phase ≠ .responseReady) :
    ({ s with respReady := false } : State).Inv :=
  ⟨{ h.listed with
      uninitialized := fun hu => by
        obtain ⟨h1, h2, h3, -, h⟩ := h.listed.uninitialized hu
        exact ⟨h1, h2, h3, rfl, h⟩
      commandPending := fun hc => ⟨rfl, (h.listed.commandPending hc).2⟩
      responseReady := fun hr => absurd hr hp },
   { h.more with pendingNoResponse := fun _ => rfl }⟩

/-- R94, R156: clearing the data half. -/
theorem resetData (h : s.Inv) : s.resetData.Inv :=
  ⟨{ h.listed with
      fifoBounds := ⟨Nat.zero_le _, Nat.zero_le _⟩
      uninitialized := fun hu => by
        obtain ⟨h1, h2, h3, h4, -, -, -, -, h9⟩ := h.listed.uninitialized hu
        exact ⟨h1, h2, h3, h4, rfl, rfl, rfl, rfl, h9⟩
      xferFault := nofun },
   { h.more with }⟩

/-! ## The port and the reset lines -/

/-- R35 item 9 and its further clauses, in one: the phase admits the record in flight. -/
theorem admits_port (h : s.Inv) : s.Admits s.port := by
  cases hp : s.port with
  | idle => trivial
  | readCommand elapsed =>
    exact ⟨h.listed.portReadCommand _ hp, h.more.readCommandReady _ hp⟩
  | readData buf i elapsed => exact h.listed.portReadData _ _ _ hp
  | writeData buf i elapsed => exact h.listed.portWriteData _ _ _ hp
  | waitWhileBusy timeoutUs elapsed =>
    simpa [Admits, Phase.operational_iff] using h.more.waitWhileBusyPhase _ _ hp
  | waitForReset line timeoutUs elapsed => trivial

/-- The port may take any record the phase admits, if it waits for the line that is asserted. -/
theorem setPort (h : s.Inv) {p : Port} (hp : s.Admits p) (hr : ∀ r, s.rstReq.get r = true →
      ∃ timeoutUs elapsed, p = .waitForReset r timeoutUs elapsed) :
    ({ s with port := p } : State).Inv :=
  ⟨{ h.listed with
      resetInFlight := hr
      portReadCommand := by rintro _ rfl; exact hp.1
      portReadData := by rintro _ _ _ rfl; exact hp
      portWriteData := by rintro _ _ _ rfl; exact hp },
   { h.more with
      readCommandReady := by rintro _ rfl; exact hp.2
      waitWhileBusyPhase := by
        rintro _ _ rfl
        simpa using (Phase.operational_iff _).mp hp
      uninitializedPort := hp.of_uninitialized }⟩

/-- Issuing an operation that waits for no line, or ending one, while no line is asserted. -/
theorem setPort_of_no_request (h : s.Inv) {p : Port} (hr : ∀ r, s.rstReq.get r = false)
    (hp : s.Admits p) : ({ s with port := p } : State).Inv :=
  h.setPort hp fun r ha => absurd ((hr r).symm.trans ha) nofun

/-- Completing an operation while no reset line is asserted. -/
theorem complete (h : s.Inv) (hr : ∀ r, s.rstReq.get r = false) (r : Result) (buf : List Byte) :
    (s.complete r buf).Inv :=
  (h.setPort_of_no_request (p := .idle) hr trivial).answers r buf

/-- R160: counting `elapsed` up. -/
theorem tick (h : s.Inv) : ({ s with port := s.port.tick } : State).Inv :=
  h.setPort h.admits_port.tick fun r ha => by
    obtain ⟨timeoutUs, elapsed, hp⟩ := h.listed.resetInFlight r ha
    exact ⟨timeoutUs, elapsed + 1, hp ▸ rfl⟩

/-- R133: with no line asserted, asserting one and waiting for it. -/
theorem assertReset (h : s.Inv) (hr : ∀ r, s.rstReq.get r = false) (hp : s.phase ≠ .uninitialized)
    (line : ResetLine) (timeoutUs : Word) (elapsed : Nat) :
    ({ s with rstReq := s.rstReq.set true line,
              port := .waitForReset line timeoutUs elapsed } : State).Inv := by
  have hi := h.setPort_of_no_request (p := .waitForReset line timeoutUs elapsed) hr trivial
  exact ⟨{ hi.listed with
      uninitialized := fun hu => absurd hu hp
      resetInFlight := fun r ha => ResetRequests.eq_of_asserted hr ha ▸ ⟨timeoutUs, elapsed, rfl⟩
      resetUnique := fun r r' ha ha' =>
        (ResetRequests.eq_of_asserted hr ha).trans (ResetRequests.eq_of_asserted hr ha').symm },
    { hi.more with }⟩

/-- R134: withdrawing a reset request. -/
theorem withdraw (h : s.Inv) (line : ResetLine) :
    ({ s with rstReq := s.rstReq.set false line } : State).Inv :=
  ⟨{ h.listed with
      uninitialized := fun hu => by
        obtain ⟨h1, h2, h3, h4, h5, h6, h7, h8, h9⟩ := h.listed.uninitialized hu
        exact ⟨h1, h2, h3, h4, h5, h6, h7, h8, fun r => by simp [h9]⟩
      resetInFlight := fun r hr => h.listed.resetInFlight r (ResetRequests.get_of_withdrawn hr)
      resetUnique := fun r r' hr hr' =>
        h.listed.resetUnique r r' (ResetRequests.get_of_withdrawn hr)
          (ResetRequests.get_of_withdrawn hr') },
    { h.more with }⟩

/-- R35 item 8: while `wait_for_reset` is in flight and its line is not asserted, no line is. -/
theorem no_request_of_line (h : s.Inv) {line : ResetLine} {timeoutUs : Word} {elapsed : Nat}
    (hp : s.port = .waitForReset line timeoutUs elapsed) (hl : s.rstReq.get line = false)
    (r : ResetLine) : s.rstReq.get r = false := by
  by_contra hc
  have ha : s.rstReq.get r = true := by simpa using hc
  obtain ⟨_, _, hr⟩ := h.listed.resetInFlight r ha
  cases hp.symm.trans hr
  exact hc hl

/-! ## The phase -/

/-- Going to Standby or to Error, if the record in flight is admitted there. -/
theorem setPhase (h : s.Inv) {p : Phase} (hp : p = .standby ∨ p = .error)
    (hport : ({ s with phase := p } : State).Admits s.port) :
    ({ s with phase := p } : State).Inv := by
  have hne {q : Phase} (h1 : q ≠ .standby) (h2 : q ≠ .error) : p ≠ q := by
    rintro rfl
    exact hp.elim h1 h2
  exact ⟨{ h.listed with
      uninitialized := fun hu => absurd hu (hne nofun nofun)
      busReady := by
        rintro (hu | hu | hu) <;> exact absurd hu (hne nofun nofun)
      pendingPhase := fun _ => hp
      commandPending := fun hu => absurd hu (hne nofun nofun)
      responseReady := fun hu => absurd hu (hne nofun nofun)
      portReadCommand := fun _ e => (e ▸ hport : Admits _ (.readCommand _)).1
      portReadData := fun _ _ _ e => (e ▸ hport : Admits _ (.readData _ _ _))
      portWriteData := fun _ _ _ e => (e ▸ hport : Admits _ (.writeData _ _ _))
      xferFault := fun _ => hne nofun nofun },
    { h.more with
      waitWhileBusyPhase := fun _ _ e => by
        simpa using (Phase.operational_iff _).mp (e ▸ hport : Admits _ (.waitWhileBusy _ _))
      uninitializedPort := fun hu => absurd hu (hne nofun nofun) }⟩

/-- A step that frees the port and goes to Standby or to Error while no reset line is asserted. -/
theorem settle (h : s.Inv) (hr : ∀ r, s.rstReq.get r = false) {p : Phase}
    (hp : p = .standby ∨ p = .error) : ({ s with phase := p, port := .idle } : State).Inv :=
  (h.setPort_of_no_request (p := .idle) hr trivial).setPhase hp trivial

/-- R177: a fault while no reset line is asserted. -/
theorem enterError (h : s.Inv) (hr : ∀ r, s.rstReq.get r = false) (e : Err) (buf : List Byte) :
    (s.enterError e buf).Inv :=
  (h.settle hr (.inr rfl)).answers (.err e) buf

/-- R112: a legal command with a good CRC, its flags cleared, ends `read_command`. -/
theorem enterCommandPending (h : s.Inv) (hr : ∀ r, s.rstReq.get r = false)
    (hb : s.busReady = true) (hrr : s.respReady = false) (hcp : s.cmdPending = false) :
    ({ s with phase := .commandPending, port := .idle } : State).Inv := by
  have hi := h.setPort_of_no_request (p := .idle) hr trivial
  exact ⟨{ hi.listed with
      uninitialized := nofun
      busReady := fun _ => hb
      pendingPhase := fun ha => absurd (hcp.symm.trans ha) nofun
      commandPending := fun _ => ⟨hrr, hcp⟩
      responseReady := nofun
      portReadCommand := nofun
      portReadData := nofun
      portWriteData := nofun
      xferFault := nofun },
    { hi.more with
      waitWhileBusyPhase := nofun
      uninitializedPort := nofun }⟩

/-- R114: with the response ready, CommandPending is left for ResponseReady or DataTransfer. -/
theorem enterResponse (h : s.Inv) (hport : s.port = .idle) (hp : s.phase = .commandPending)
    {p : Phase} (hq : p = .responseReady ∨ p = .dataTransfer) :
    ({ s with respReady := true, phase := p } : State).Inv := by
  have hcp := (h.listed.commandPending hp).2
  have hne {q : Phase} (h1 : q ≠ .responseReady) (h2 : q ≠ .dataTransfer) : p ≠ q := by
    rintro rfl
    exact hq.elim h1 h2
  exact ⟨{ h.listed with
      uninitialized := fun hu => absurd hu (hne nofun nofun)
      busReady := fun _ => h.listed.busReady (.inl hp)
      pendingPhase := fun ha => absurd (hcp.symm.trans ha) nofun
      commandPending := fun hu => absurd hu (hne nofun nofun)
      responseReady := fun _ => rfl
      portReadCommand := fun _ e => absurd (hport.symm.trans e) nofun
      portReadData := fun _ _ _ e => absurd (hport.symm.trans e) nofun
      portWriteData := fun _ _ _ e => absurd (hport.symm.trans e) nofun
      xferFault := fun _ => hne nofun nofun },
    { h.more with
      pendingNoResponse := fun ha => absurd (hcp.symm.trans ha) nofun
      waitWhileBusyPhase := fun _ _ e => absurd (hport.symm.trans e) nofun
      uninitializedPort := fun _ => .inl hport }⟩

/-- R156: the phase after line Cmd or Data, while that line's `wait_for_reset` is in flight. -/
theorem setPhase_afterReset (h : s.Inv) {line : ResetLine} (hl : line ≠ .all) {r : ResetLine}
    (hr : s.rstReq.get r = true) : ({ s with phase := phaseAfterReset line s.phase } : State).Inv := by
  obtain ⟨_, _, hport⟩ := h.listed.resetInFlight r hr
  rcases phaseAfterReset_eq hl s.phase with he | he <;> rw [he]
  · exact h
  · exact h.setPhase (.inl rfl) (hport ▸ trivial)

/-- R151: the phase once the response is taken. -/
theorem setPhase_afterTake (h : s.Inv) :
    ({ s with phase := if s.phase = .responseReady then .standby else s.phase } : State).Inv := by
  split
  case isFalse => exact h
  case isTrue hp => exact h.setPhase (.inl rfl) (h.admits_port.of_responseReady hp)

end Inv

end Sys2Proof.Machine.State

namespace Sys2Proof.Machine

/-! ## What every step does -/

/-- A driver instruction on an idle port keeps the invariant. -/
theorem DriverEffect.keeps_inv {s t : State} {i : Instr} (h : s.Inv) (hp : s.port = .idle)
    (hd : DriverEffect s i t) : t.Inv := by
  have hr := h.no_request_of_idle hp
  cases hd with
  | answer i r buf => exact h.answers r buf
  | setupBus ho => exact (h.setBusReady (Phase.ne_uninitialized_of_operational ho)).answers _ _
  | init _ =>
    exact .of_clear h.more.params
      ⟨rfl, rfl, rfl, rfl, rfl, rfl, rfl, rfl, ResetRequests.get_none⟩ (.inr rfl) (.inl hp)
  | waitForReset _ timeout r hu _ => exact h.assertReset hr hu r timeout 0
  | waitWhileBusy timeoutUs ho => exact h.setPort_of_no_request hr ho
  | readNothing _ _ => exact (h.setPhase (.inl rfl) (hp ▸ trivial)).answers _ _
  | readData buf hd _ hl => exact h.setPort_of_no_request hr ⟨hd, hl⟩
  | writeNothing _ _ => exact (h.setPhase (.inl rfl) (hp ▸ trivial)).answers _ _
  | writeData buf hd _ hl => exact h.setPort_of_no_request hr ⟨hd, hl⟩
  | sendTuning _ _ m w ho _ _ _ _ =>
    exact (h.setTuningActive (b := true) (Phase.ne_uninitialized_of_operational ho)).of_agrees rfl
  | setInterrupt v _ => exact h.of_agrees rfl
  | clearAllInterrupt _ => exact h.of_agrees rfl
  | setResponseInterrupt v _ => exact h.of_agrees rfl
  | clearAllResponseInterrupt _ => exact h.of_agrees rfl
  | readCommand hs hb => exact h.setPort_of_no_request hr ⟨hs, hb⟩
  | writeResponse index withCrc payload hc _ =>
    exact (h.enterResponse hp hc (phaseAfterResponse_cases s)).of_agrees rfl

/-- The POLL of the operation in flight keeps the invariant. -/
theorem PollEffect.keeps_inv {s t : State} (h : s.Inv) (hpoll : PollEffect s t) : t.Inv := by
  cases hpoll with
  | waiting _ => exact h
  | commandCrc _ hp _ _ => exact h.consumeLatch.enterError (h.no_request (by simp [hp])) _ _
  | commandIllegal _ hp _ _ _ => exact h.consumeLatch.enterError (h.no_request (by simp [hp])) _ _
  | commandOk _ hp hc _ _ =>
    exact (h.consumeLatch.enterCommandPending (h.no_request (by simp [hp]))
      (h.more.readCommandReady _ hp) (h.more.pendingNoResponse hc) rfl).of_agrees rfl
  | commandTimeout _ _ hp => exact h.enterError (h.no_request (by simp [hp])) _ _
  | readFault _ _ _ hp => exact h.enterError (h.no_request (by simp [hp])) _ _
  | readByte buf i elapsed b rest hp _ hx hl =>
    obtain ⟨hd, -⟩ := h.listed.portReadData _ _ _ hp
    exact (h.takeRx hx).setPort_of_no_request (h.no_request (by simp [hp])) ⟨hd, by simpa using hl⟩
  | readLast _ _ _ _ _ hp _ hx _ =>
    exact ((h.takeRx hx).settle (h.no_request (by simp [hp])) (.inl rfl)).answers _ _
  | readTimeout _ _ _ _ hp => exact h.enterError (h.no_request (by simp [hp])) _ _
  | writeFault _ _ _ hp => exact h.enterError (h.no_request (by simp [hp])) _ _
  | writeByte _ _ _ b hp _ hw _ hl =>
    obtain ⟨hd, -⟩ := h.listed.portWriteData _ _ _ hp
    exact (h.putTx (by simp [hd]) hw b).setPort_of_no_request (h.no_request (by simp [hp])) ⟨hd, hl⟩
  | writeLast _ _ _ b hp _ hw _ _ =>
    obtain ⟨hd, -⟩ := h.listed.portWriteData _ _ _ hp
    exact ((h.putTx (by simp [hd]) hw b).settle (h.no_request (by simp [hp])) (.inl rfl)).answers _ _
  | writeTimeout _ _ _ _ hp => exact h.enterError (h.no_request (by simp [hp])) _ _
  | busyDone _ _ hp _ => exact h.complete (h.no_request (by simp [hp])) _ _
  | busyTimeout _ _ hp => exact h.enterError (h.no_request (by simp [hp])) _ _
  | resetDone _ _ _ hp hl => exact h.complete (h.no_request_of_line hp hl) _ _
  | resetTimeout line _ _ hp _ _ =>
    have hw := h.withdraw line
    exact hw.enterError (hw.no_request_of_line hp (by simp)) _ _

/-- A step of the host, the hardware or the clock keeps the invariant. -/
theorem EnvEffect.keeps_inv {s t : State} {e : EnvStep} (h : s.Inv) (he : EnvEffect s e t) :
    t.Inv := by
  cases he with
  | idle _ _ => exact h
  | latch f hp _ hr => exact (h.latch hp hr (crcBad f)).of_agrees rfl
  | takeResponse _ =>
    refine (h.setPhase_afterTake.clearRespReady ?_).of_agrees rfl
    show (if s.phase = .responseReady then Phase.standby else s.phase) ≠ .responseReady
    split
    · nofun
    · assumption
  | pushByte b hp hl => exact (h.putRx hp hl b).of_agrees rfl
  | popByte _ _ hx => exact (h.takeTx hx).of_agrees rfl
  | busFault hp => exact (h.setXferFault (by simp [hp])).of_agrees rfl
  | resetAll hr =>
    exact .of_clear h.more.params s.clear_resetAll (.inl rfl)
      (.inr ⟨.all, h.listed.resetInFlight .all hr⟩)
  | resetCmd hr =>
    have hp := h.setPhase_afterReset (line := .cmd) nofun (r := .cmd) hr
    exact ((hp.consumeLatch.clearRespReady (phaseAfterReset_cmd_ne _)).withdraw .cmd).of_agrees rfl
  | resetData hr =>
    have hp := h.setPhase_afterReset (line := .data) nofun (r := .data) hr
    exact (hp.resetData.withdraw .data).of_agrees rfl
  | tuningDone ht =>
    have hp := h.ne_uninitialized (by simp [State.Clear, ht])
    exact (h.setTuningActive (b := false) hp).of_agrees rfl
  | poll _ hp => exact hp.keeps_inv h
  | tick => exact h.tick

/-- Every step keeps the invariant. -/
theorem State.Inv.step_keeps {s t : State} (h : s.Inv) (hs : step s = .next t) : t.Inv := by
  rcases step_effect hs with ⟨r, rest, _, _, hp, hd⟩ | ⟨e, inputs, draws, _, he⟩
  · exact hd.keeps_inv (h.fetch rest s.draws) hp
  · exact he.keeps_inv (h.fetch inputs draws)

/-- R156: an enabled reset line performs its reset. -/
theorem runEnv_hwReset {s : State} {line : ResetLine} (h : s.rstReq.get line = true) :
    runEnv (.hwReset line) s = .next (s.performReset line) :=
  congrArg Host.Outcome.next (if_pos h)

/-- A run keeps the invariant. -/
theorem State.Inv.run_keeps {k : Nat} {s t : State} (h : s.Inv)
    (hr : Host.Core.run Sys2Proof.core k s = .next t) : t.Inv := by
  induction k generalizing s with
  | zero => cases hr; exact h
  | succ k ih =>
    obtain ⟨u, hu, hk⟩ := run_next hr
    exact ih (h.step_keeps hu) hk

/-- R33: the invariant holds at power-on. -/
theorem State.inv_reset : State.reset.Inv :=
  .of_clear Config.params_valid State.clear_reset (.inl rfl) (.inl rfl)

end Sys2Proof.Machine

end

/-! SUPPORT. Which steps write the codec's registers, the data flags and the interrupt registers. -/

section

namespace Sys2Proof.Machine

/-- A POLL writes no register of the codec but `cur_index`, no data flag and no interrupt register. -/
theorem PollEffect.frame {s t : State} (h : PollEffect s t) :
    t.busReady = s.busReady ∧ t.cmdLatch = s.cmdLatch ∧ t.respReg = s.respReg ∧
    t.xferFault = s.xferFault ∧ t.tuningActive = s.tuningActive ∧ t.intSt = s.intSt ∧
    t.rintSt = s.rintSt := by
  cases h <;> exact ⟨rfl, rfl, rfl, rfl, rfl, rfl, rfl⟩

/-- Only the POLL of `read_command` writes `cur_index`. -/
theorem PollEffect.curIndex {s t : State} (h : PollEffect s t) :
    (∃ elapsed, s.port = .readCommand elapsed) ∨ t.curIndex = s.curIndex := by
  cases h
  case commandOk elapsed hp _ _ _ => exact .inl ⟨elapsed, hp⟩
  all_goals exact .inr rfl

/-! ## The codec's registers (R14, R15, R18, R19) -/

/-- Of the driver's instructions only `init`, `setup_bus` and `write_response` write a codec register. -/
theorem DriverEffect.codecRegisters {s t : State} {i : Instr} (h : DriverEffect s i t) :
    i = .init ∨
    (i = .setupBus ∨ t.busReady = s.busReady) ∧ t.cmdLatch = s.cmdLatch ∧ t.curIndex = s.curIndex ∧
    ((∃ index withCrc payload, i = .writeResponse index withCrc payload) ∨ t.respReg = s.respReg) := by
  cases h
  case init => exact .inl rfl
  case setupBus => exact .inr ⟨.inl rfl, rfl, rfl, .inr rfl⟩
  case writeResponse index withCrc payload _ _ =>
    exact .inr ⟨.inr rfl, rfl, rfl, .inl ⟨index, withCrc, payload, rfl⟩⟩
  all_goals exact .inr ⟨.inr rfl, rfl, rfl, .inr rfl⟩

/-- Of the other agents' steps only lines All and Cmd, a frame and the POLL of `read_command` do. -/
theorem EnvEffect.codecRegisters {s t : State} {e : EnvStep} (h : EnvEffect s e t) :
    e = .hwReset .all ∨ t.busReady = s.busReady ∧
    (e = .hwReset .cmd ∨
      ((∃ f, e = .sendCommand f) ∨ t.cmdLatch = s.cmdLatch) ∧
      ((e = .poll ∧ ∃ elapsed, s.port = .readCommand elapsed) ∨ t.curIndex = s.curIndex) ∧
      t.respReg = s.respReg) := by
  cases h
  case latch f _ _ _ => exact .inr ⟨rfl, .inr ⟨.inl ⟨f, rfl⟩, .inr rfl, rfl⟩⟩
  case resetAll => exact .inl rfl
  case resetCmd => exact .inr ⟨rfl, .inl rfl⟩
  case poll hp =>
    obtain ⟨hb, hl, hr, -⟩ := hp.frame
    refine .inr ⟨hb, .inr ⟨.inr hl, ?_, hr⟩⟩
    exact hp.curIndex.imp_left fun hr => ⟨rfl, hr⟩
  all_goals exact .inr ⟨rfl, .inr ⟨.inr rfl, .inr rfl, rfl⟩⟩

/-! ## The data flags (R23, R25) -/

/-- A flag that a step leaves alone has not gone from one value to the other. -/
theorem elim_of_opposite {b x : Bool} {p : Prop} (h : b = x) (h' : b = !x) : p := by
  cases x <;> simp_all

/-- Of the driver's instructions only `init` clears the flags and only `send_tuning` sets one. -/
theorem DriverEffect.dataFlags {s t : State} {i : Instr} (h : DriverEffect s i t) :
    (s.xferFault = true → t.xferFault = false → i = .init) ∧
    (s.xferFault = false → t.xferFault = true → False) ∧
    (s.tuningActive = false → t.tuningActive = true → ∃ mode width, i = .sendTuning mode width) ∧
    (s.tuningActive = true → t.tuningActive = false → i = .init) := by
  cases h
  case init => exact ⟨fun _ _ => rfl, nofun, nofun, fun _ _ => rfl⟩
  case sendTuning mode width _ _ _ _ _ _ _ =>
    exact ⟨elim_of_opposite, elim_of_opposite, fun _ _ => ⟨mode, width, rfl⟩, nofun⟩
  all_goals exact ⟨elim_of_opposite, elim_of_opposite, elim_of_opposite, elim_of_opposite⟩

/-- Of the other agents' steps lines All and Data clear both flags, BUS_FAULT sets one and
HW_TUNING_DONE clears the other. -/
theorem EnvEffect.dataFlags {s t : State} {e : EnvStep} (h : EnvEffect s e t) :
    (s.xferFault = true → t.xferFault = false → e = .hwReset .all ∨ e = .hwReset .data) ∧
    (s.xferFault = false → t.xferFault = true → e = .busFault) ∧
    (s.tuningActive = false → t.tuningActive = true → False) ∧
    (s.tuningActive = true → t.tuningActive = false →
      e = .hwReset .all ∨ e = .hwReset .data ∨ e = .tuningDone) := by
  cases h
  case busFault => exact ⟨nofun, fun _ _ => rfl, elim_of_opposite, elim_of_opposite⟩
  case resetAll => exact ⟨fun _ _ => .inl rfl, nofun, nofun, fun _ _ => .inl rfl⟩
  case resetData => exact ⟨fun _ _ => .inr rfl, nofun, nofun, fun _ _ => .inr (.inl rfl)⟩
  case tuningDone => exact ⟨elim_of_opposite, elim_of_opposite, nofun, fun _ _ => .inr (.inr rfl)⟩
  case poll hp =>
    obtain ⟨-, -, -, hx, ht, -⟩ := hp.frame
    rw [hx, ht]
    exact ⟨elim_of_opposite, elim_of_opposite, elim_of_opposite, elim_of_opposite⟩
  all_goals exact ⟨elim_of_opposite, elim_of_opposite, elim_of_opposite, elim_of_opposite⟩

/-! ## The interrupt registers (R26) -/

/-- `w` has every bit that `v` has. -/
def Covers (w v : Word) : Prop := ∀ k, v.getLsbD k = true → w.getLsbD k = true

theorem Covers.refl (v : Word) : Covers v v := fun _ => id

theorem covers_or (v u : Word) : Covers (v ||| u) v := fun k h => by simp [h]

theorem covers_setBit (v : Word) (k : Nat) : Covers (setBit v k) v := covers_or _ _

theorem Covers.trans {u v w : Word} (h : Covers w v) (h' : Covers v u) : Covers w u :=
  fun k hk => h k (h' k hk)

/-- Every instruction but `init` and the two clear-alls only adds interrupt bits. -/
theorem DriverEffect.interruptBits {s t : State} {i : Instr} (h : DriverEffect s i t) :
    ((i = .clearAllInterrupt ∨ i = .init) ∨ Covers t.intSt s.intSt) ∧
    ((i = .clearAllResponseInterrupt ∨ i = .init) ∨ Covers t.rintSt s.rintSt) := by
  cases h
  case init => exact ⟨.inl (.inr rfl), .inl (.inr rfl)⟩
  case setInterrupt => exact ⟨.inr (covers_or _ _), .inr (.refl _)⟩
  case clearAllInterrupt => exact ⟨.inl (.inl rfl), .inr (.refl _)⟩
  case setResponseInterrupt => exact ⟨.inr (.refl _), .inr (covers_or _ _)⟩
  case clearAllResponseInterrupt => exact ⟨.inr (.refl _), .inl (.inl rfl)⟩
  all_goals exact ⟨.inr (.refl _), .inr (.refl _)⟩

/-- Every other agent's step but line All only adds interrupt bits. -/
theorem EnvEffect.interruptBits {s t : State} {e : EnvStep} (h : EnvEffect s e t) :
    e = .hwReset .all ∨ Covers t.intSt s.intSt ∧ Covers t.rintSt s.rintSt := by
  cases h
  case resetAll => exact .inl rfl
  case latch f _ _ _ =>
    refine .inr ⟨.refl _, ?_⟩
    show Covers (if crcBad f then _ else _) _
    split
    · exact (covers_setBit _ 1).trans (covers_setBit _ 0)
    · exact covers_setBit _ 0
  case takeResponse => exact .inr ⟨.refl _, covers_setBit _ 2⟩
  case pushByte => exact .inr ⟨covers_setBit _ 0, .refl _⟩
  case popByte b rest _ =>
    refine .inr ⟨?_, .refl _⟩
    show Covers (if rest = [] then _ else _) _
    split
    · exact covers_setBit _ 1
    · exact .refl _
  case busFault => exact .inr ⟨covers_setBit _ 2, .refl _⟩
  case resetCmd => exact .inr ⟨covers_setBit _ 3, .refl _⟩
  case resetData => exact .inr ⟨covers_setBit _ 3, .refl _⟩
  case tuningDone => exact .inr ⟨covers_setBit _ 4, .refl _⟩
  case poll hp =>
    obtain ⟨-, -, -, -, -, hi, hr⟩ := hp.frame
    rw [hi, hr]
    exact .inr ⟨.refl _, .refl _⟩
  all_goals exact .inr ⟨.refl _, .refl _⟩

end Sys2Proof.Machine

end

/-! SUPPORT. Nothing but the two reads of them looks at the interrupt registers (R26, R173): from two
states that differ only there every other step goes alike. -/

section

namespace Sys2Proof.Machine

/-- `t` is `s` but for the two interrupt registers. -/
def State.Alike (s t : State) : Prop := ∃ a b, t = { s with intSt := a, rintSt := b }

/-- Two outcomes that differ at most in the interrupt registers of the next state. -/
inductive OutAlike : Out → Out → Prop
  | next {s t : State} : s.Alike t → OutAlike (.next s) (.next t)
  | fault (f : Fault) : OutAlike (.fault f) (.fault f)
  | refused (r : Refusal) : OutAlike (.refused r) (.refused r)

theorem OutAlike.of_next {x y : Out} {s : State} (h : OutAlike x y) (hx : x = .next s) :
    ∃ a b, y = .next { s with intSt := a, rintSt := b } := by
  subst hx
  cases h with
  | next ha =>
    obtain ⟨a, b, rfl⟩ := ha
    exact ⟨a, b, rfl⟩

theorem OutAlike.of_fault {x y : Out} {f : Fault} (h : OutAlike x y) (hx : x = .fault f) :
    y = .fault f := by
  subst hx
  cases h
  rfl

theorem State.Alike.ite {c : Prop} [Decidable c] {s s' t t' : State} (h : s.Alike t)
    (h' : s'.Alike t') : (if c then s else s').Alike (if c then t else t') := by
  split <;> assumption

theorem OutAlike.ite {c : Prop} [Decidable c] {x x' y y' : Out} (h : OutAlike x y)
    (h' : OutAlike x' y') : OutAlike (if c then x else x') (if c then y else y') := by
  split <;> assumption

theorem onIdlePort_alike (s : State) (a b : Word) {t t' : State} (h : t.Alike t') :
    OutAlike (onIdlePort s t) (onIdlePort { s with intSt := a, rintSt := b } t') :=
  .ite (.next h) (.refused _)

/-- Every operation but the two reads of the interrupt registers goes alike. -/
theorem exec_alike {i : Instr} (hd : isDriverInstr i = true) (hi : i ≠ .interrupt)
    (hr : i ≠ .responseInterrupt) (s : State) (a b : Word) :
    OutAlike (exec i s) (exec i { s with intSt := a, rintSt := b }) := by
  cases i
  case interrupt => exact absurd rfl hi
  case responseInterrupt => exact absurd rfl hr
  case cmd48 => cases hd
  case rsp48 => cases hd
  case setupBus | init | waitWhileBusy | setInterrupt | clearAllInterrupt | setResponseInterrupt
      | clearAllResponseInterrupt | readCommand | writeResponse =>
    exact onIdlePort_alike s a b (.ite ⟨_, _, rfl⟩ ⟨_, _, rfl⟩)
  case readData | writeData =>
    exact onIdlePort_alike s a b (.ite (.ite ⟨_, _, rfl⟩ ⟨_, _, rfl⟩) ⟨_, _, rfl⟩)
  case fifoReady | waitForReset | sendTuning =>
    refine onIdlePort_alike s a b ?_
    dsimp only [State.tuningLegal]
    split <;> exact ⟨_, _, rfl⟩
  all_goals exact onIdlePort_alike s a b ⟨_, _, rfl⟩

theorem poll_alike (s : State) (a b : Word) :
    OutAlike (poll s) (poll { s with intSt := a, rintSt := b }) := by
  unfold poll
  dsimp only
  split
  case h_1 => exact .next ⟨_, _, rfl⟩
  case h_2 elapsed =>
    exact .next (.ite (.ite ⟨_, _, rfl⟩ (.ite ⟨_, _, rfl⟩ ⟨_, _, rfl⟩))
      (.ite ⟨_, _, rfl⟩ ⟨_, _, rfl⟩))
  case h_3 buf i elapsed =>
    refine .ite (.next ⟨_, _, rfl⟩) ?_
    dsimp only
    split
    · split
      · exact .ite (.next ⟨_, _, rfl⟩) (.next ⟨_, _, rfl⟩)
      · exact .fault _
    · exact .ite (.next ⟨_, _, rfl⟩) (.next ⟨_, _, rfl⟩)
  case h_4 buf i elapsed =>
    refine .ite (.next ⟨_, _, rfl⟩) (.ite ?_ (.ite (.next ⟨_, _, rfl⟩) (.next ⟨_, _, rfl⟩)))
    split
    · exact .ite (.next ⟨_, _, rfl⟩) (.next ⟨_, _, rfl⟩)
    · exact .fault _
  case h_5 => exact .next (.ite (.ite ⟨_, _, rfl⟩ ⟨_, _, rfl⟩) ⟨_, _, rfl⟩)
  case h_6 => exact .next (.ite (.ite ⟨_, _, rfl⟩ ⟨_, _, rfl⟩) ⟨_, _, rfl⟩)

theorem runEnv_alike (e : EnvStep) (s : State) (a b : Word) :
    OutAlike (runEnv e s) (runEnv e { s with intSt := a, rintSt := b }) := by
  cases e
  case sendCommand f =>
    simp only [runEnv_sendCommand, hostSendCommand, State.latch_eq]
    exact .next (.ite ⟨_, _, rfl⟩ ⟨_, _, rfl⟩)
  case takeResponse | pushByte | busFault | tuningDone =>
    exact .next (.ite ⟨_, _, rfl⟩ ⟨_, _, rfl⟩)
  case popByte =>
    refine .next ?_
    dsimp only
    split
    · exact ⟨_, _, rfl⟩
    · exact .ite ⟨_, _, rfl⟩ ⟨_, _, rfl⟩
  case hwReset line =>
    refine .next (.ite ?_ ⟨_, _, rfl⟩)
    cases line <;> exact ⟨_, _, rfl⟩
  case poll => exact poll_alike s a b
  case tick => exact .next ⟨_, _, rfl⟩

/-- A read of a register, of the value `v` in one state and `w` in the other: misuse in both, or one
more result in each, `Ok` of its own value. -/
theorem accessor_read {s t : State} {v : Word} (a b w : Word)
    (h : accessor s (s.complete (.ok (.word v)) []) = .next t) :
    ∃ rs, accessor { s with intSt := a, rintSt := b }
        (State.complete { s with intSt := a, rintSt := b } (.ok (.word w)) []) =
        .next { t with intSt := a, rintSt := b, results := rs } ∧
      (rs = t.results ∨
        t.results = s.results ++ [⟨.ok (.word v), []⟩] ∧
        rs = s.results ++ [⟨.ok (.word w), []⟩]) := by
  obtain ⟨hp, rfl⟩ := onIdlePort_next_iff.mp h
  by_cases hi : s.phase.initialized = true
  · rw [if_pos hi]
    exact ⟨_, (onIdlePort_of_idle hp).trans (congrArg _ (if_pos hi)), .inr ⟨rfl, rfl⟩⟩
  · rw [if_neg hi]
    exact ⟨_, (onIdlePort_of_idle hp).trans (congrArg _ (if_neg hi)), .inl rfl⟩

/-! ## The step -/

/-- Two states that differ only in the interrupt registers take the same input, and their fetches leave
the same inputs and draw counter. -/
theorem step_fetched (s : State) (a b : Word) : ∃ inputs draws,
    step s = runInput s.nextInput { s with inputs := inputs, draws := draws } ∧
    step { s with intSt := a, rintSt := b } =
      runInput s.nextInput
        { s with inputs := inputs, draws := draws, intSt := a, rintSt := b } := by
  have taken : State.inputTaken { s with intSt := a, rintSt := b } = s.inputTaken := rfl
  show ∃ inputs draws, runInput s.nextInput s.afterFetch = _ ∧
    runInput s.nextInput (State.afterFetch { s with intSt := a, rintSt := b }) = _
  unfold State.afterFetch
  rw [taken]
  cases s.inputTaken <;> exact ⟨_, _, rfl, rfl⟩

/-- A request that answers goes alike, but for what a read of an interrupt register reports. -/
theorem issue_alike {s t : State} {r : Request} (a b : Word) (h : issue r s = .next t) :
    ∃ a' b' rs,
      issue r { s with intSt := a, rintSt := b } =
        .next { t with intSt := a', rintSt := b', results := rs } ∧
      (rs = t.results ∨
        decodeRequest r = .interrupt ∧
          t.results = s.results ++ [⟨.ok (.word s.intSt), []⟩] ∧
          rs = s.results ++ [⟨.ok (.word a), []⟩] ∨
        decodeRequest r = .responseInterrupt ∧
          t.results = s.results ++ [⟨.ok (.word s.rintSt), []⟩] ∧
          rs = s.results ++ [⟨.ok (.word b), []⟩]) := by
  unfold issue at h ⊢
  have hd := isDriverInstr_decodeRequest r
  by_cases hi : decodeRequest r = .interrupt
  · rw [hi] at h ⊢
    obtain ⟨rs, hx, hrs⟩ := accessor_read a b a h
    exact ⟨a, b, rs, hx, hrs.imp_right fun hw => .inl ⟨rfl, hw⟩⟩
  by_cases hr : decodeRequest r = .responseInterrupt
  · rw [hr] at h ⊢
    obtain ⟨rs, hx, hrs⟩ := accessor_read a b b h
    exact ⟨a, b, rs, hx, hrs.imp_right fun hw => .inr ⟨rfl, hw⟩⟩
  obtain ⟨a', b', hy⟩ := (exec_alike hd hi hr s a b).of_next h
  exact ⟨a', b', t.results, hy, .inl rfl⟩

/-- A request never faults: it answers on an idle port and is refused on another (R8). -/
theorem issue_not_fault (r : Request) (s : State) (f : Fault) : issue r s ≠ .fault f := by
  have hd := isDriverInstr_decodeRequest r
  unfold issue
  by_cases hp : s.port = .idle
  · obtain ⟨t, ht⟩ := exec_driver_idle hd hp
    simp [ht]
  · simp [exec_driver_busy hd hp]

end Sys2Proof.Machine

end

/-! PROOFS. The statements of 10_state.md. -/

section

namespace Sys2Proof.Proofs

open Sys2Proof.Machine

/-- Settles O54: by cases on what the step does, each effect's writes kept by the lemma for the fields it
writes (`State.Inv.step_keeps`). -/
theorem stepKeepsInvariant : Obligations.StepKeepsInvariant :=
  fun _ _ h hs => h.step_keeps hs

/-- Settles O53: power-on is a cleared block in Uninitialized. -/
theorem invariantAtReset : Obligations.InvariantAtReset := State.inv_reset

/-- Settles O55: the invariant holds at power-on, whatever is listed to come next, and every run keeps
it. -/
theorem reachableStatesMeetR35 : Obligations.ReachableStatesMeetR35 := by
  intro inputs k t hr
  have h : ({ State.reset with inputs := inputs } : State).Inv := State.inv_reset.fetch inputs 1
  exact (h.run_keeps hr).listed

/-- Settles O52: `State.reset` holds these values. -/
theorem resetValues : Obligations.ResetValues :=
  ⟨rfl, rfl, rfl, rfl, rfl, rfl, rfl, rfl, rfl, rfl, rfl, rfl, rfl⟩

/-- Settles O34: line All performs `State.resetAll` while its request bit is 1; the unspecified fields
are its draws. -/
theorem fullResetEffect : Obligations.FullResetEffect := by
  intro s hr
  exact ⟨_, _, _, _, runEnv_hwReset (line := .all) hr⟩

/-- Settles O48: by the kind of the step, from what each effect writes of the codec's registers. -/
theorem codecRegistersWrittenOnlyBy : Obligations.CodecRegistersWrittenOnlyBy := by
  intro s t hs
  rcases step_effect hs with ⟨r, rest, _, hn, _, hd⟩ | ⟨e, inputs, draws, hn, he⟩ <;> rw [hn]
  · rcases hd.codecRegisters with hi | ⟨hb, hl, hc, hr⟩
    · have byInit : ∃ r', Input.request r = .request r' ∧ decodeRequest r' = .init := ⟨r, rfl, hi⟩
      exact ⟨fun _ => .inl byInit, fun _ => .inl byInit, fun _ => .inl byInit, fun _ => .inl byInit⟩
    · refine ⟨fun h => ?_, fun h => absurd hl h, fun h => absurd hc h, fun h => ?_⟩
      · exact .inr (.inr ⟨r, rfl, hb.resolve_right h⟩)
      · obtain ⟨index, withCrc, payload, hi⟩ := hr.resolve_right h
        exact .inr (.inr ⟨r, index, withCrc, payload, rfl, hi⟩)
  · rcases he.codecRegisters with rfl | ⟨hb, rfl | ⟨hl, hc, hr⟩⟩
    · exact ⟨fun _ => .inr (.inl rfl), fun _ => .inr (.inl (.inl rfl)),
        fun _ => .inr (.inl (.inl rfl)), fun _ => .inr (.inl (.inl rfl))⟩
    · exact ⟨fun h => absurd hb h, fun _ => .inr (.inl (.inr rfl)),
        fun _ => .inr (.inl (.inr rfl)), fun _ => .inr (.inl (.inr rfl))⟩
    · refine ⟨fun h => absurd hb h, fun h => ?_, fun h => ?_, fun h => absurd hr h⟩
      · obtain ⟨f, rfl⟩ := hl.resolve_right h
        exact .inr (.inr ⟨f, rfl⟩)
      · obtain ⟨rfl, hp⟩ := hc.resolve_right h
        exact .inr (.inr ⟨rfl, hp⟩)

/-- Settles O49: by the kind of the step, from what each effect writes of the two flags. -/
theorem dataFlagsWrittenOnlyBy : Obligations.DataFlagsWrittenOnlyBy := by
  intro s t hs
  rcases step_effect hs with ⟨r, rest, _, hn, _, hd⟩ | ⟨e, inputs, draws, hn, he⟩ <;> rw [hn]
  · obtain ⟨hx0, hx1, ht1, ht0⟩ := hd.dataFlags
    refine ⟨fun h h' => .inl ⟨r, rfl, hx0 h h'⟩, fun h h' => (hx1 h h').elim, fun h h' => ?_,
      fun h h' => .inl ⟨r, rfl, ht0 h h'⟩⟩
    obtain ⟨mode, width, hi⟩ := ht1 h h'
    exact ⟨r, mode, width, rfl, hi⟩
  · obtain ⟨hx0, hx1, ht1, ht0⟩ := he.dataFlags
    refine ⟨fun h h' => .inr ?_, fun h h' => congrArg _ (hx1 h h'), fun h h' => (ht1 h h').elim,
      fun h h' => .inr ?_⟩
    · exact (hx0 h h').imp (congrArg _) (congrArg _)
    · exact (ht0 h h').imp (congrArg _) (.imp (congrArg _) (congrArg _))

/-- Settles O50: by the kind of the step; every other write of an interrupt register is an OR. -/
theorem interruptBitsAreSticky : Obligations.InterruptBitsAreSticky := by
  intro s t k hs
  have lost {v w : Word} (h : Covers w v) (h1 : v.getLsbD k = true) (h0 : w.getLsbD k = false) :
      False := absurd (h0.symm.trans (h k h1)) nofun
  rcases step_effect hs with ⟨r, rest, _, hn, _, hd⟩ | ⟨e, inputs, draws, hn, he⟩ <;> rw [hn]
  · obtain ⟨hi, hr⟩ := hd.interruptBits
    exact ⟨fun h1 h0 => .inl ⟨r, rfl, hi.resolve_right fun h => lost h h1 h0⟩,
      fun h1 h0 => .inl ⟨r, rfl, hr.resolve_right fun h => lost h h1 h0⟩⟩
  · rcases he.interruptBits with rfl | ⟨hi, hr⟩
    · exact ⟨fun _ _ => .inr rfl, fun _ _ => .inr rfl⟩
    · exact ⟨fun h1 h0 => (lost hi h1 h0).elim, fun h1 h0 => (lost hr h1 h0).elim⟩

/-- Settles O51: the fetch looks at no interrupt register, a request goes alike by `issue_alike` and a
step of another agent by `runEnv_alike`. -/
theorem pendingBitsCauseNothing : Obligations.PendingBitsCauseNothing := by
  intro s a b
  obtain ⟨inputs, draws, hs, hs'⟩ := step_fetched s a b
  rw [hs, hs']
  cases s.nextInput with
  | request r =>
    refine ⟨fun t h => ?_, fun f h => absurd h (issue_not_fault r _ f)⟩
    obtain ⟨a', b', rs, hx, hrs⟩ := issue_alike a b h
    exact ⟨a', b', rs, hx, hrs.imp_right fun hw => ⟨r, rfl, hw⟩⟩
  | env e =>
    have hx := runEnv_alike e { s with inputs := inputs, draws := draws } a b
    refine ⟨fun t h => ?_, fun f h => hx.of_fault h⟩
    obtain ⟨a', b', hy⟩ := hx.of_next h
    exact ⟨a', b', t.results, hy, .inl rfl⟩

end Sys2Proof.Proofs

end

/-! SUPPORT. The bytes a data operation moves (R48, R127, R128): what went through each FIFO between two
states, how far the pump in flight is, and that every step of another agent keeps the count. -/

section

namespace Sys2Proof.Machine

/-! ## Runs of the other agents -/

/-- A predicate that does not look at the inputs and that each step of another agent keeps is kept by a
run of such steps. -/
theorem run_env_induction {P : State → Prop} {s t : State} {es : List EnvStep}
    (fetch : ∀ u inputs, P u → P { u with inputs := inputs })
    (keep : ∀ u v e, u.Inv → P u → EnvEffect u e v → P v) (h : s.Inv) (hP : P s)
    (hi : s.inputs = es.map .env) (hr : Host.Core.run Sys2Proof.core es.length s = .next t) : P t := by
  induction es generalizing s with
  | nil => cases hr; exact hP
  | cons e es ih =>
    obtain ⟨u, hu, hk⟩ := run_next hr
    have he := env_effect ((step_env hi).symm.trans hu)
    exact ih (h.step_keeps hu) (keep _ _ e (h.fetch _ s.draws) (fetch s _ hP) he)
      he.keeps_inputs_params.1 hk

/-- Such a predicate, once the issue of a request has made it hold, holds after a run of such steps. -/
theorem run_request_env {P : State → Prop} {s t : State} {r : Request} {es : List EnvStep}
    (h : s.Inv) (hp : s.port = .idle) (hi : s.inputs = .request r :: es.map .env)
    (hr : Host.Core.run Sys2Proof.core (es.length + 1) s = .next t)
    (issue : ∀ u, exec (decodeRequest r) { s with inputs := es.map .env } = .next u → P u)
    (fetch : ∀ u inputs, P u → P { u with inputs := inputs })
    (keep : ∀ u v e, u.Inv → P u → EnvEffect u e v → P v) : P t := by
  obtain ⟨u, hu, hk⟩ := run_next hr
  have hx := (step_request hi hp).symm.trans hu
  have hin := (exec_effect (isDriverInstr_decodeRequest r) hx).2.keeps_inputs_params.1
  exact run_env_induction fetch keep (h.step_keeps hu) (issue u hx) hin hk

/-! ## What goes through the FIFOs -/

/-- A FIFO gives its bytes in the order in which it got them, over two stretches of a run. -/
theorem fifo_order_trans {q q' q'' out out' put put' : List Byte} (h : out ++ q' = q ++ put)
    (h' : out' ++ q'' = q' ++ put') : (out ++ out') ++ q'' = q ++ (put ++ put') := by
  rw [List.append_assoc, h', ← List.append_assoc, h, List.append_assoc]

namespace State

variable {s t u : State} {a b buf : List Byte}

/-- Between `s` and `t` the driver put `moved` into `txf`, and the host popped from its head. -/
def Sent (s t : State) (moved : List Byte) : Prop :=
  ∃ popped, t.hostPopped = s.hostPopped ++ popped ∧ popped ++ t.txf = s.txf ++ moved

/-- Between `s` and `t` the driver took `taken` from the head of `rxf`, and the host pushed. -/
def Received (s t : State) (taken : List Byte) : Prop :=
  ∃ pushed, t.hostPushed = s.hostPushed ++ pushed ∧ taken ++ t.rxf = s.rxf ++ pushed

theorem Sent.of_eq (hl : t.hostPopped = s.hostPopped) (hq : t.txf = s.txf ++ a) : s.Sent t a :=
  ⟨[], by simp [hl], hq⟩

theorem Received.of_eq (hl : t.hostPushed = s.hostPushed) (hq : a ++ t.rxf = s.rxf) :
    s.Received t a :=
  ⟨[], by simp [hl], by simp [hq]⟩

theorem Sent.trans (h : s.Sent u a) (h' : u.Sent t b) : s.Sent t (a ++ b) := by
  obtain ⟨p, hl, hq⟩ := h
  obtain ⟨p', hl', hq'⟩ := h'
  exact ⟨p ++ p', by rw [hl', hl, List.append_assoc], fifo_order_trans hq hq'⟩

theorem Received.trans (h : s.Received u a) (h' : u.Received t b) : s.Received t (a ++ b) := by
  obtain ⟨p, hl, hq⟩ := h
  obtain ⟨p', hl', hq'⟩ := h'
  exact ⟨p ++ p', by rw [hl', hl, List.append_assoc], fifo_order_trans hq hq'⟩

/-! ## The stage of a data operation -/

/-- The data operation issued in `s` is in flight in `u` with the record `op elapsed`, or has ended once
with the buffer `buf`; it ended with `Ok` only if `full`. -/
def PumpStage (s u : State) (op : Nat → Port) (buf : List Byte) (full : Prop) : Prop :=
  (∃ elapsed, u.port = op elapsed) ∧ u.results = s.results ∨
  u.port = .idle ∧ ∃ r, u.results = s.results ++ [⟨r, buf⟩] ∧ (r = .ok .unit → full)

variable {op : Nat → Port} {full : Prop}

/-- R35 item 8: during and after a data operation no reset line is asserted. -/
theorem PumpStage.no_request (hs : s.PumpStage u op buf full) (h : u.Inv)
    (hop : ∀ k, (op k).isPump = true) : ∀ r, u.rstReq.get r = false := by
  refine h.no_request fun r timeoutUs elapsed hp => ?_
  rcases hs with ⟨⟨k, hk⟩, -⟩ | ⟨hk, -⟩
  · have := hop k
    rw [← hk, hp] at this
    cases this
  · cases hk.symm.trans hp

/-- A step that at most counts `elapsed` up leaves the stage as it is. -/
theorem PumpStage.of_frame (hs : s.PumpStage u op buf full) (htick : ∀ k, (op k).tick = op (k + 1))
    (hr : t.results = u.results) (hp : t.port = u.port ∨ t.port = u.port.tick) :
    s.PumpStage t op buf full := by
  rw [PumpStage, hr]
  refine hs.imp (.imp_left ?_) (.imp_left ?_)
  · rintro ⟨k, hk⟩
    rw [hk, htick] at hp
    exact hp.elim (⟨k, ·⟩) (⟨k + 1, ·⟩)
  · intro hk
    rw [hk, Port.tick_idle, or_self] at hp
    exact hp

/-- R35 item 3: in DataTransfer the guard of both pumps holds. -/
theorem Inv.pumpLegal (h : s.Inv) (hd : s.phase = .dataTransfer) : s.pumpLegal = true :=
  s.pumpLegal_iff.mpr ⟨hd, h.listed.busReady (.inr (.inr hd))⟩

/-- What a data operation's one result says of its stage. -/
theorem PumpStage.of_results (hs : s.PumpStage t op buf full) {r : Result} {buf' : List Byte}
    (hr : t.results = s.results ++ [⟨r, buf'⟩]) : buf' = buf ∧ (r = .ok .unit → full) := by
  rcases hs with ⟨-, hn⟩ | ⟨-, r', hn, hf⟩
  · simp [hn] at hr
  · simp only [hn, List.append_cancel_left_eq, List.cons.injEq, Completion.mk.injEq, and_true] at hr
    obtain ⟨rfl, rfl⟩ := hr
    exact ⟨rfl, hf⟩

end State

/-! ## The steps of the other agents -/

/-- While no reset line is asserted, in no step but POLL does the driver move a byte or get a result, and
none does more to the port than count `elapsed` up. -/
theorem EnvEffect.pump_frame {s t : State} {e : EnvStep} (h : EnvEffect s e t) (he : e ≠ .poll)
    (hr : ∀ r, s.rstReq.get r = false) :
    s.Sent t [] ∧ s.Received t [] ∧ t.results = s.results ∧
      (t.port = s.port ∨ t.port = s.port.tick) := by
  have sent {t : State} (hl : t.hostPopped = s.hostPopped) (hq : t.txf = s.txf) : s.Sent t [] :=
    .of_eq hl (by simpa using hq)
  have received {t : State} (hl : t.hostPushed = s.hostPushed) (hq : t.rxf = s.rxf) :
      s.Received t [] := .of_eq hl hq
  cases h
  case poll => exact absurd rfl he
  case resetAll ha => cases (hr .all).symm.trans ha
  case resetCmd ha => cases (hr .cmd).symm.trans ha
  case resetData ha => cases (hr .data).symm.trans ha
  case pushByte b _ _ => exact ⟨sent rfl rfl, ⟨[b], rfl, rfl⟩, rfl, .inl rfl⟩
  case popByte b rest hx => exact ⟨⟨[b], rfl, by simp [hx]⟩, received rfl rfl, rfl, .inl rfl⟩
  case tick => exact ⟨sent rfl rfl, received rfl rfl, rfl, .inr rfl⟩
  all_goals exact ⟨sent rfl rfl, received rfl rfl, rfl, .inl rfl⟩

/-! ## POLL, by the record in flight -/

theorem PollEffect.of_idle {s t : State} (h : PollEffect s t) (hp : s.port = .idle) : t = s := by
  cases h
  case waiting => rfl
  all_goals cases hp.symm.trans ‹s.port = _›

/-- R123: the POLL of `read_data` waits, fails, or takes the head of `rxf`. -/
theorem PollEffect.of_readData {s t : State} {buf : List Byte} {i elapsed : Nat}
    (h : PollEffect s t) (hp : s.port = .readData buf i elapsed) :
    t = s ∨ t = s.enterError .general buf ∨ ∃ b rest, s.rxf = b :: rest ∧
      (t = { s with rxf := rest, port := .readData (buf.set i b) (i + 1) elapsed } ∨
       i + 1 = buf.length ∧
        t = ({ s with rxf := rest, phase := .standby }).complete (.ok .unit) (buf.set i b)) := by
  cases h
  case waiting => exact .inl rfl
  all_goals cases hp.symm.trans ‹s.port = _›
  case readFault => exact .inr (.inl rfl)
  case readTimeout => exact .inr (.inl rfl)
  case readByte b rest _ hx _ _ => exact .inr (.inr ⟨b, rest, hx, .inl rfl⟩)
  case readLast b rest _ hx hl _ => exact .inr (.inr ⟨b, rest, hx, .inr ⟨hl, rfl⟩⟩)

/-- R126: the POLL of `write_data` waits, fails, or puts byte `i` into `txf`. -/
theorem PollEffect.of_writeData {s t : State} {buf : List Byte} {i elapsed : Nat}
    (h : PollEffect s t) (hp : s.port = .writeData buf i elapsed) :
    t = s ∨ t = s.enterError .general buf ∨ ∃ b, buf[i]? = some b ∧
      (t = { s with txf := s.txf ++ [b], port := .writeData buf (i + 1) elapsed } ∨
       i + 1 = buf.length ∧
        t = ({ s with txf := s.txf ++ [b], phase := .standby }).complete (.ok .unit) buf) := by
  cases h
  case waiting => exact .inl rfl
  all_goals cases hp.symm.trans ‹s.port = _›
  case writeFault => exact .inr (.inl rfl)
  case writeTimeout => exact .inr (.inl rfl)
  case writeByte b _ _ hb _ _ => exact .inr (.inr ⟨b, hb, .inl rfl⟩)
  case writeLast b _ _ hb hl _ => exact .inr (.inr ⟨b, hb, .inr ⟨hl, rfl⟩⟩)

end Sys2Proof.Machine

/-! ## `write_data` -/

namespace Sys2Proof.Machine.State

variable {s t u : State} {buf : List Byte}

/-- R127, R128: `write_data(buf)`, issued in `s`, has put the first bytes of `buf` into `txf`; `Ok`
means all of it. -/
def WriteProgress (s : State) (buf : List Byte) (u : State) : Prop :=
  ∃ moved, moved <+: buf ∧ s.Sent u moved ∧
    s.PumpStage u (.writeData buf moved.length) buf (moved = buf)

/-- The first bytes of `buf` and the one behind them are its first bytes again. -/
theorem append_next_isPrefix {moved buf : List Byte} {b : Byte} (hm : moved <+: buf)
    (hb : buf[moved.length]? = some b) : moved ++ [b] <+: buf := by
  obtain ⟨rest, rfl⟩ := hm
  cases rest with
  | nil => simp at hb
  | cons c rest =>
    obtain rfl : c = b := by simpa using hb
    exact ⟨rest, by simp⟩

theorem WriteProgress.poll (hw : s.WriteProgress buf u) (hpoll : PollEffect u t) :
    s.WriteProgress buf t := by
  obtain ⟨moved, hm, hsent, hstage⟩ := hw
  rcases id hstage with ⟨⟨elapsed, hp⟩, hres⟩ | ⟨hp, -⟩
  · rcases hpoll.of_writeData hp with rfl | rfl | ⟨b, hb, hnext⟩
    · exact ⟨moved, hm, hsent, hstage⟩
    · exact ⟨moved, hm, hsent, .inr ⟨rfl, _, congrArg (· ++ _) hres, nofun⟩⟩
    · have hm' := append_next_isPrefix hm hb
      have hsent' {v : State} (hl : v.hostPopped = u.hostPopped) (hq : v.txf = u.txf ++ [b]) :
          s.Sent v (moved ++ [b]) := hsent.trans (.of_eq hl hq)
      refine ⟨moved ++ [b], hm', ?_⟩
      rcases hnext with rfl | ⟨hlast, rfl⟩
      · exact ⟨hsent' rfl rfl, .inl ⟨⟨elapsed, by simp⟩, hres⟩⟩
      · refine ⟨hsent' rfl rfl, .inr ⟨rfl, _, congrArg (· ++ _) hres, fun _ => ?_⟩⟩
        exact hm'.eq_of_length (by simpa using hlast)
  · obtain rfl := hpoll.of_idle hp
    exact ⟨moved, hm, hsent, hstage⟩

theorem WriteProgress.env {e : EnvStep} (hw : s.WriteProgress buf u) (h : u.Inv)
    (he : EnvEffect u e t) : s.WriteProgress buf t := by
  by_cases hpoll : e = .poll
  · subst hpoll
    cases he with
    | idle _ _ => exact hw
    | poll _ hp => exact hw.poll hp
  · obtain ⟨moved, hm, hsent, hstage⟩ := hw
    obtain ⟨hs, -, hr, hp⟩ := he.pump_frame hpoll (hstage.no_request h fun _ => rfl)
    exact ⟨moved, hm, by simpa using hsent.trans hs, hstage.of_frame (fun _ => rfl) hr hp⟩

/-- R125: the issue in DataTransfer moves nothing; an empty buffer is done at once. -/
theorem WriteProgress.issue (h : s.Inv) (hd : s.phase = .dataTransfer) (inputs : List Input)
    (hx : exec (.writeData buf) { s with inputs := inputs } = .next u) : s.WriteProgress buf u := by
  obtain ⟨hp, rfl⟩ := onIdlePort_next_iff.mp hx
  refine ⟨[], List.nil_prefix, ?_⟩
  rw [if_pos ((h.fetch inputs s.draws).pumpLegal hd)]
  cases buf with
  | nil => exact ⟨.of_eq rfl (by simp), .inr ⟨rfl, _, rfl, fun _ => rfl⟩⟩
  | cons b bs => exact ⟨.of_eq rfl (by simp), .inl ⟨⟨0, rfl⟩, rfl⟩⟩

/-! ## `read_data` -/

/-- R127, R128: `read_data(buf)`, issued in `s`, has put the bytes `taken` from `rxf` over the front of
`buf`; `Ok` means over all of it. -/
def ReadProgress (s : State) (buf : List Byte) (u : State) : Prop :=
  ∃ taken, taken.length ≤ buf.length ∧ s.Received u taken ∧
    s.PumpStage u (.readData (taken ++ buf.drop taken.length) taken.length)
      (taken ++ buf.drop taken.length) (taken.length = buf.length)

/-- The next byte goes behind the bytes already written over the front of the buffer. -/
theorem set_overwritten {taken buf : List Byte} (b : Byte) (hl : taken.length < buf.length) :
    (taken ++ buf.drop taken.length).set taken.length b =
      (taken ++ [b]) ++ buf.drop (taken ++ [b]).length := by
  rw [List.set_append_right _ _ le_rfl, Nat.sub_self, List.drop_eq_getElem_cons hl,
    List.set_cons_zero]
  simp

theorem ReadProgress.poll (h : u.Inv) (hr : s.ReadProgress buf u) (hpoll : PollEffect u t) :
    s.ReadProgress buf t := by
  obtain ⟨taken, hl, hrec, hstage⟩ := hr
  rcases id hstage with ⟨⟨elapsed, hp⟩, hres⟩ | ⟨hp, -⟩
  · have hlt : taken.length < buf.length := by
      have := (h.listed.portReadData _ _ _ hp).2
      simp at this
      omega
    rcases hpoll.of_readData hp with rfl | rfl | ⟨b, rest, hx, hnext⟩
    · exact ⟨taken, hl, hrec, hstage⟩
    · exact ⟨taken, hl, hrec, .inr ⟨rfl, _, congrArg (· ++ _) hres, nofun⟩⟩
    · have hrec' {v : State} (hl : v.hostPushed = u.hostPushed) (hq : v.rxf = rest) :
          s.Received v (taken ++ [b]) := hrec.trans (.of_eq hl (by simp [hq, hx]))
      rw [set_overwritten b hlt] at hnext
      refine ⟨taken ++ [b], by simpa using hlt, ?_⟩
      rcases hnext with rfl | ⟨hlast, rfl⟩
      · exact ⟨hrec' rfl rfl, .inl ⟨⟨elapsed, by simp⟩, hres⟩⟩
      · refine ⟨hrec' rfl rfl, .inr ⟨rfl, _, congrArg (· ++ _) hres, fun _ => ?_⟩⟩
        simp at hlast ⊢
        omega
  · obtain rfl := hpoll.of_idle hp
    exact ⟨taken, hl, hrec, hstage⟩

theorem ReadProgress.env {e : EnvStep} (hr : s.ReadProgress buf u) (h : u.Inv)
    (he : EnvEffect u e t) : s.ReadProgress buf t := by
  by_cases hpoll : e = .poll
  · subst hpoll
    cases he with
    | idle _ _ => exact hr
    | poll _ hp => exact hr.poll h hp
  · obtain ⟨taken, hl, hrec, hstage⟩ := hr
    obtain ⟨-, hs, hres, hp⟩ := he.pump_frame hpoll (hstage.no_request h fun _ => rfl)
    exact ⟨taken, hl, by simpa using hrec.trans hs, hstage.of_frame (fun _ => rfl) hres hp⟩

/-- R122: the issue in DataTransfer moves nothing; an empty buffer is done at once. -/
theorem ReadProgress.issue (h : s.Inv) (hd : s.phase = .dataTransfer) (inputs : List Input)
    (hx : exec (.readData buf) { s with inputs := inputs } = .next u) : s.ReadProgress buf u := by
  obtain ⟨hp, rfl⟩ := onIdlePort_next_iff.mp hx
  refine ⟨[], Nat.zero_le _, ?_⟩
  rw [if_pos ((h.fetch inputs s.draws).pumpLegal hd)]
  cases buf with
  | nil => exact ⟨.of_eq rfl rfl, .inr ⟨rfl, _, rfl, fun _ => rfl⟩⟩
  | cons b bs => exact ⟨.of_eq rfl rfl, .inl ⟨⟨0, rfl⟩, rfl⟩⟩

end Sys2Proof.Machine.State

end

/-! PROOFS. The statements of 20_memory.md. -/

section

namespace Sys2Proof.Proofs

open Sys2Proof.Machine

/-- Settles O2: the bytes give the packet back, and the packet decodes to its instruction. -/
theorem decodeEncodeBytesAgree : Obligations.DecodeEncodeBytesAgree := by
  intro i hw
  rw [decodeBytes, packetOfBytes_bytes]
  exact decode_encode hw

/-- Settles O57: the issue starts `State.WriteProgress`, and every later step keeps it. -/
theorem writeDataRoundTrip : Obligations.WriteDataRoundTrip := by
  intro s t a b buf es h hp hd hi hr
  obtain ⟨moved, hm, ⟨popped, hl, hq⟩, hstage⟩ : s.WriteProgress buf t :=
    run_request_env h hp hi hr (fun _ hx => .issue h hd _ hx) (fun _ _ hw => hw)
      fun _ _ _ hinv hw he => hw.env hinv he
  exact ⟨moved, popped, hm, hl, hq, fun hres => (hstage.of_results hres).2 rfl⟩

/-- Settles O58: the issue starts `State.ReadProgress`, and every later step keeps it. -/
theorem readDataRoundTrip : Obligations.ReadDataRoundTrip := by
  intro s t a b buf buf' r es h hp hd hi hr hres
  obtain ⟨taken, hlen, ⟨pushed, hl, hq⟩, hstage⟩ : s.ReadProgress buf t :=
    run_request_env h hp hi hr (fun _ hx => .issue h hd _ hx) (fun _ _ hw => hw)
      fun _ _ _ hinv hw he => hw.env hinv he
  obtain ⟨hbuf, hfull⟩ := hstage.of_results hres
  exact ⟨taken, pushed, hl, hq, hbuf, hlen, hfull⟩

end Sys2Proof.Proofs

end

/-! SUPPORT. What the decoder reads is encoded back, and what `send_tuning`, a reserved code, a frame the
host sends and `read_command` answer. -/

section

namespace Sys2Proof

/-! ## What the decoder reads is encoded back (R73 to R76, R61, R62) -/

theorem encode_decodeReserved (op : Opsel) : encode (decodeReserved op) = plainRequest op := by
  unfold decodeReserved
  repeat' split
  all_goals rfl

theorem wellFormed_decodeReserved {op : Opsel} (h : 0x12 ≤ op.toNat) :
    (decodeReserved op).wellFormed = true := by
  have := op.isLt
  unfold decodeReserved
  repeat' split
  all_goals exact (opselBetween_iff _ _ op).mpr ⟨by omega, by omega⟩

theorem isReserved_decodeReserved (op : Opsel) :
    Machine.isReserved (decodeReserved op) = true := by
  unfold decodeReserved
  repeat' split
  all_goals rfl

/-- A request decodes to a well-formed instruction, whose encoding keeps the OPSEL (R75). -/
theorem encode_decodeRequest (r : Request) : (decodeRequest r).wellFormed = true ∧
    ∃ r', encode (decodeRequest r) = .request r' ∧ r'.opsel = r.opsel := by
  unfold decodeRequest
  split
  case h_19 =>
    rw [encode_decodeReserved]
    refine ⟨wellFormed_decodeReserved ?_, _, rfl, rfl⟩
    simp only [imp_false] at *
    omega
  all_goals
    rename_i hop
    exact ⟨rfl, _, rfl, BitVec.eq_of_toNat_eq hop.symm⟩

/-- A frame that decodes is rebuilt bit for bit. -/
theorem encode_decodeFrame {f : Frame} {i : Instr} (h : decodeFrame f = .ok i) :
    i.wellFormed = true ∧ encode i = .frame f := by
  rcases decodeFrame_eq_ok h with ⟨_, _, _, rfl, rfl⟩ | ⟨_, _, _, rfl, rfl⟩ <;> exact ⟨rfl, rfl⟩

end Sys2Proof

namespace Sys2Proof.Machine

variable {s t : State}

/-! ## Operand codes (R78 to R81) -/

theorem exists_fifoStatusOf {a : Word} (h : a.toNat ≤ 1) : ∃ d, fifoStatusOf a = some d :=
  Option.ne_none_iff_exists'.mp fun hn => absurd ((fifoStatusOf_eq_none_iff a).mp hn) (by omega)

theorem exists_resetLineOf {a : Word} (h : a.toNat ≤ 2) : ∃ r, resetLineOf a = some r :=
  Option.ne_none_iff_exists'.mp fun hn => absurd ((resetLineOf_eq_none_iff a).mp hn) (by omega)

theorem exists_tuningModeOf {a : Word} (h : a.toNat ≤ 2) : ∃ m, tuningModeOf a = some m :=
  Option.ne_none_iff_exists'.mp fun hn => absurd ((tuningModeOf_eq_none_iff a).mp hn) (by omega)

theorem exists_tuningWidthOf {b : Word} (h : b.toNat ≤ 1) : ∃ w, tuningWidthOf b = some w :=
  Option.ne_none_iff_exists'.mp fun hn => absurd ((tuningWidthOf_eq_none_iff b).mp hn) (by omega)

/-! ## `send_tuning` (R146) -/

theorem State.tuningLegal_iff (s : State) : s.tuningLegal = true ↔
    s.phase.operational = true ∧ s.busReady = true ∧ s.tuningActive = false := by
  simp [State.tuningLegal, and_assoc]

theorem tuningModeOf_of_code {a : Word} {m : TuningMode}
    (h : (a, m) ∈ [((0 : Word), TuningMode.sdr50), (1, .sdr104), (2, .hs200)]) :
    tuningModeOf a = some m := by
  simp only [List.mem_cons, Prod.mk.injEq, List.not_mem_nil, or_false] at h
  rcases h with ⟨rfl, rfl⟩ | ⟨rfl, rfl⟩ | ⟨rfl, rfl⟩ <;> rfl

theorem tuningWidthOf_of_code {b : Word} {w : TuningWidth}
    (h : (b, w) ∈ [((0 : Word), TuningWidth.bits4), (1, .bits8)]) : tuningWidthOf b = some w := by
  simp only [List.mem_cons, Prod.mk.injEq, List.not_mem_nil, or_false] at h
  rcases h with ⟨rfl, rfl⟩ | ⟨rfl, rfl⟩ <;> rfl

theorem exec_sendTuning {mode width : Word} {m : TuningMode} {w : TuningWidth} (hp : s.port = .idle)
    (hl : s.tuningLegal = true) (hm : tuningModeOf mode = some m) (hw : tuningWidthOf width = some w) :
    exec (.sendTuning mode width) s =
      .next (({ s with tuningActive := true, tuningMode := m, tuningWidth := w }).answers
        (.ok .unit) []) := by
  have hx : exec (.sendTuning mode width) s = _ := onIdlePort_of_idle hp
  rw [hx, hl, hm, hw]
  exact congrArg _ (State.complete_of_idle (by exact hp) _ _)

theorem exec_sendTuning_misuse {mode width : Word} (hp : s.port = .idle)
    (h : s.tuningLegal = false ∨ tuningModeOf mode = none ∨ tuningWidthOf width = none) :
    exec (.sendTuning mode width) s = .next (s.answers (.err .general) []) := by
  have hx : exec (.sendTuning mode width) s = _ := onIdlePort_of_idle hp
  rw [hx, ← State.misuse_of_idle hp]
  congr 1
  split
  · simp_all
  · rfl

/-! ## Reserved codes (R76) -/

theorem exec_reserved {i : Instr} (hr : isReserved i = true) (hp : s.port = .idle) :
    exec i s = .next (s.answers (.err .unimplemented) []) := by
  rw [← State.complete_of_idle hp]
  cases i
  case reserved12To13 | reserved14To17 | reserved18To1F | reserved20To3F | reserved40To7F |
      reserved80ToFF => exact onIdlePort_of_idle hp
  all_goals cases hr

/-! ## Latching a frame (R150) -/

theorem setBit_zero (v : Word) : setBit v 0 = v ||| 1 := rfl

theorem setBit_one_of_zero (v : Word) : setBit (v ||| 1) 1 = v ||| 3 := BitVec.or_assoc ..

theorem hostSendCommand_of_not_armed
    (h : s.phase ≠ .standby ∨ s.cmdPending = true ∨ s.respReady = true) (f : Frame) :
    hostSendCommand f s = .next s := by
  rw [hostSendCommand, if_neg]
  rw [State.latchArmed_iff]
  rintro ⟨h1, h2, h3⟩
  simp_all

theorem hostSendCommand_of_armed (h1 : s.phase = .standby) (h2 : s.cmdPending = false)
    (h3 : s.respReady = false) (f : Frame) : hostSendCommand f s = .next (s.latch f) := by
  rw [hostSendCommand, if_pos ((State.latchArmed_iff s).mpr ⟨h1, h2, h3⟩)]

/-- `State.latch_eq` with the CRC verdict as the inequality it is and the event bits as a mask. -/
theorem State.latch_eq_verdict (s : State) (f : Frame) : s.latch f = { s with
      cmdLatch := f, cmdPending := true,
      cmdCrcFail := decide (crc7 (frameHead f) ≠ frameCrc f),
      rintSt := if crc7 (frameHead f) ≠ frameCrc f then s.rintSt ||| 3 else s.rintSt ||| 1 } := by
  have hb : crcBad f = decide (crc7 (frameHead f) ≠ frameCrc f) := by
    simp only [crcBad, bne, ne_eq, decide_not, beq_eq_decide]
  simp only [State.latch_eq, hb, setBit_one_of_zero, setBit_zero, decide_eq_true_eq]

theorem commandFrame_eq (index : Index) (arg : Word) (crc : Crc7) :
    commandFrame index arg crc = 0b01#2 ++ index ++ arg ++ crc ++ 1#1 := rfl

/-! ## `read_command` (R110, R112) -/

@[simp] theorem frameLegal_cmd (p : Params) (index : Index) (arg : Word) :
    frameLegal p (cmd index arg) = p.legalCmd index arg := by
  simp [frameLegal, cmd, commandFrame, frameWellFormed]

theorem exec_readCommand (hp : s.port = .idle) (h1 : s.phase = .standby) (h2 : s.busReady = true) :
    exec .readCommand s = .next { s with port := .readCommand 0 } := by
  have hx : exec .readCommand s = _ := onIdlePort_of_idle hp
  rw [hx, if_pos ⟨h1, h2⟩]

/-- The POLL of `read_command` takes a latched command that passed its CRC check and is legal. -/
theorem step_poll_readCommand {rest : List Input} {elapsed : Nat}
    (hi : s.inputs = .env .poll :: rest) (hp : s.port = .readCommand elapsed)
    (h1 : s.cmdPending = true) (h2 : s.cmdCrcFail = false)
    (h3 : frameLegal s.params s.cmdLatch = true) :
    step s = .next (({ s.consumeLatch with
      inputs := rest, curIndex := frameIndex s.cmdLatch, phase := .commandPending }).complete
        (.ok (.command (commandOf s.cmdLatch))) []) := by
  simp [step_env hi, runEnv, poll, hp, pollReadCommand, h1, h2, h3, State.consumeLatch]

/-- With a legal command latched in Standby, `read_command` and its POLL return it. -/
theorem run_readCommand {r : Request} (hi : s.inputs = [.request r, .env .poll])
    (hr : decodeRequest r = .readCommand) (hp : s.port = .idle) (h1 : s.phase = .standby)
    (h2 : s.busReady = true) (h3 : s.cmdPending = true) (h4 : s.cmdCrcFail = false)
    (h5 : frameLegal s.params s.cmdLatch = true) :
    Host.Core.run Sys2Proof.core 2 s = .next (({ s.consumeLatch with
      inputs := [], curIndex := frameIndex s.cmdLatch, phase := .commandPending }).complete
        (.ok (.command (commandOf s.cmdLatch))) []) := by
  have issued := step_request hi hp
  rw [hr, exec_readCommand (by exact hp) (by exact h1) (by exact h2)] at issued
  exact (run_step issued).trans (run_step (step_poll_readCommand rfl rfl h3 h4 h5))

end Sys2Proof.Machine

end

/-! SUPPORT. The guards of R102 by operation: a legal issue ends in no error. -/

section

namespace Sys2Proof.Machine

variable {s t : State}

/-! ## The columns of R102 as the guards the operations test -/

section Columns

variable {p : Phase}

theorem operational_of_column (h : inColumns false true true true true false p = true) :
    p.operational = true := by
  cases p <;> exact h

theorem initialized_of_column (h : inColumns false true true true true true p = true) :
    p.initialized = true := by
  cases p <;> exact h

theorem initLegal_of_column (h : inColumns true false false false false true p = true) :
    initLegal p = true := by
  cases p <;> exact h

theorem standby_of_column (h : inColumns false true false false false false p = true) :
    p = .standby := by
  cases p <;> trivial

theorem commandPending_of_column (h : inColumns false false true false false false p = true) :
    p = .commandPending := by
  cases p <;> trivial

theorem dataTransfer_of_column (h : inColumns false false false false true false p = true) :
    p = .dataTransfer := by
  cases p <;> trivial

end Columns

/-! ## Issues that end in no error -/

/-- Issued in `s`, an operation with caller buffer `buf` has taken the port and has no result yet, or
has completed with a result that is no error. -/
def State.IssuedOk (s : State) (buf : List Byte) (t : State) : Prop :=
  t.results = s.results ∧ t.port ≠ .idle ∨
  ∃ r, t.results = s.results ++ [⟨r, buf⟩] ∧ t.port = .idle ∧ ∀ e, r ≠ .err e

theorem State.IssuedOk.ok (v : Value) (buf : List Byte) (h : t.results = s.results) :
    s.IssuedOk buf (t.complete (.ok v) buf) :=
  .inr ⟨.ok v, by rw [State.complete, h], rfl, nofun⟩

/-- A guard that holds on an idle port lets the operation do what it does. -/
theorem issuedOk_of_guard {c : Prop} [Decidable c] {u : State} {buf : List Byte}
    (hp : s.port = .idle) (hc : c) (h : s.IssuedOk buf t) :
    ∃ x, onIdlePort s (if c then t else u) = .next x ∧ s.IssuedOk buf x :=
  ⟨t, by rw [if_pos hc, onIdlePort_of_idle hp], h⟩

/-- R122, R125: the issue of a pump, which a length of 0 completes. -/
theorem issuedOk_pump (buf : List Byte) {p : Port} (h : p ≠ .idle) :
    s.IssuedOk buf (if buf.isEmpty then ({ s with phase := .standby }).complete (.ok .unit) buf
      else { s with port := p }) := by
  split
  · exact .ok _ _ rfl
  · exact .inl ⟨rfl, h⟩

/-- R102: an operation whose guard holds ends its issue step in no error. -/
theorem exec_issuedOk {i : Instr} (hd : isDriverInstr i = true) (hr : isReserved i = false)
    (hp : s.port = .idle) (hl : legal i s = true) :
    ∃ t, exec i s = .next t ∧ s.IssuedOk (callerBuf i) t := by
  obtain ⟨hm, hf⟩ := Bool.and_eq_true_iff.mp hl
  have access {t : State} (hi : inColumns false true true true true true s.phase = true)
      (h : s.IssuedOk [] t) : ∃ x, accessor s t = .next x ∧ s.IssuedOk [] x :=
    issuedOk_of_guard hp (initialized_of_column hi) h
  cases i
  case cardType => exact ⟨_, onIdlePort_of_idle hp, .inr ⟨_, rfl, rfl, nofun⟩⟩
  case cardMode => exact ⟨_, onIdlePort_of_idle hp, .inr ⟨_, rfl, rfl, nofun⟩⟩
  case setupBus =>
    exact issuedOk_of_guard hp (operational_of_column hm) (.ok _ _ rfl)
  case init => exact issuedOk_of_guard hp (initLegal_of_column hm) (.ok _ _ rfl)
  case fifoReady status =>
    obtain ⟨d, hs⟩ := exists_fifoStatusOf (of_decide_eq_true hf)
    refine ⟨_, onIdlePort_of_idle hp, ?_⟩
    rw [operational_of_column hm, hs]
    exact .ok _ _ rfl
  case waitForReset line timeout =>
    obtain ⟨r, hs⟩ := exists_resetLineOf (of_decide_eq_true hf)
    refine ⟨_, onIdlePort_of_idle hp, ?_⟩
    rw [initialized_of_column hm, hs]
    exact .inl ⟨rfl, nofun⟩
  case waitWhileBusy timeoutUs =>
    exact issuedOk_of_guard hp (operational_of_column hm) (.inl ⟨rfl, nofun⟩)
  case readData buf =>
    exact issuedOk_of_guard hp ((State.pumpLegal_iff s).mpr ⟨dataTransfer_of_column hm, hf⟩)
      (issuedOk_pump buf nofun)
  case writeData buf =>
    exact issuedOk_of_guard hp ((State.pumpLegal_iff s).mpr ⟨dataTransfer_of_column hm, hf⟩)
      (issuedOk_pump buf nofun)
  case sendTuning mode width =>
    simp only [furtherGuard, Bool.and_eq_true, Bool.not_eq_true', decide_eq_true_eq] at hf
    obtain ⟨⟨⟨hb, ha⟩, hmode⟩, hwidth⟩ := hf
    obtain ⟨m, hm'⟩ := exists_tuningModeOf hmode
    obtain ⟨w, hw⟩ := exists_tuningWidthOf hwidth
    have ht := (State.tuningLegal_iff s).mpr ⟨operational_of_column hm, hb, ha⟩
    exact ⟨_, exec_sendTuning hp ht hm' hw, .inr ⟨_, rfl, hp, nofun⟩⟩
  case interrupt => exact access hm (.ok _ _ rfl)
  case setInterrupt v => exact access hm (.ok _ _ rfl)
  case clearAllInterrupt => exact access hm (.ok _ _ rfl)
  case responseInterrupt => exact access hm (.ok _ _ rfl)
  case setResponseInterrupt v => exact access hm (.ok _ _ rfl)
  case clearAllResponseInterrupt => exact access hm (.ok _ _ rfl)
  case readCommand =>
    exact issuedOk_of_guard hp ⟨standby_of_column hm, hf⟩ (.inl ⟨rfl, nofun⟩)
  case writeResponse index withCrc payload =>
    exact issuedOk_of_guard hp ⟨commandPending_of_column hm, hf⟩ (.ok _ _ rfl)
  case cmd48 => cases hd
  case rsp48 => cases hd
  all_goals cases hr

end Sys2Proof.Machine

end

/-! SUPPORT. The CRC of R66 as what it computes: a linear map over GF(2) (R67 (b)), the remainder by
the generator, and the syndrome of a frame, by which errors are detected (R67 (d), (e)). -/

section

namespace Sys2Proof.Machine

/-! ## Linearity (R67 (b)) -/

theorem crcRounds_xor (a b : BitVec 40) (k : Nat) (c d : Crc7) :
    crcRounds (a ^^^ b) k (c ^^^ d) = crcRounds a k c ^^^ crcRounds b k d := by
  induction k generalizing c d with
  | zero => rfl
  | succ k ih => simp only [crcRounds_succ, BitVec.getLsbD_xor, crcRound_xor, ih]

theorem crc7_xor (a b : BitVec 40) : crc7 (a ^^^ b) = crc7 a ^^^ crc7 b :=
  crcRounds_xor a b 40 0 0

theorem crc7_zero : crc7 0 = 0 := by
  have h := crc7_xor 0 0
  rwa [BitVec.xor_self, BitVec.xor_self] at h

/-! ## The remainder by the generator (R66) -/

section Remainder

open Polynomial

theorem bitPoly_zero (w : Nat) : bitPoly (0#w) = 0 := by simp [bitPoly]

theorem bitPoly_xor {w : Nat} (a b : BitVec w) : bitPoly (a ^^^ b) = bitPoly a + bitPoly b := by
  simp only [bitPoly, ← Finset.sum_add_distrib]
  refine Finset.sum_congr rfl fun k _ => ?_
  cases ha : a.getLsbD k <;> cases hb : b.getLsbD k <;>
    simp [ha, hb, CharTwo.add_self_eq_zero]

/-- A left shift of the register multiplies by `x`, but for the term `x^7` shifted out. -/
theorem bitPoly_shiftLeft_one (c : Crc7) :
    bitPoly (c <<< 1) = bitPoly c * X - if c.getLsbD 6 then X ^ 7 else 0 := by
  simp [bitPoly, Finset.sum_range_succ, add_mul, pow_succ]

/-- The feedback of R66 is the generator without its leading term. -/
theorem bitPoly_feedback : bitPoly (0x09#7) = crcGenerator - X ^ 7 := by
  simp [bitPoly, crcGenerator, Finset.sum_range_succ]
  ring

/-- One round multiplies the register by `x` and adds the bit of `h` at `x^7`, modulo the generator. -/
theorem crcGenerator_dvd_crcRound (c : Crc7) (bit : Bool) :
    crcGenerator ∣
      bitPoly (crcRound c bit) - (bitPoly c * X + if bit then X ^ 7 else 0) := by
  have two : (X ^ 7 + X ^ 7 : (ZMod 2)[X]) = 0 := CharTwo.add_self_eq_zero _
  rw [crcRound_eq, bitPoly_xor, bitPoly_shiftLeft_one]
  cases bit <;> cases c.getLsbD 6 <;>
    simp only [Bool.xor_false, Bool.xor_true, Bool.not_false, Bool.not_true, Bool.false_eq_true,
      if_true, if_false, bitPoly_feedback, bitPoly_zero]
  · exact ⟨0, by ring⟩
  · exact ⟨1, by linear_combination -two⟩
  · exact ⟨1, by linear_combination -two⟩
  · exact ⟨0, by linear_combination -two⟩

/-- The low `k` bits of a value as a polynomial. -/
noncomputable def lowPoly (h : BitVec 40) (k : Nat) : (ZMod 2)[X] :=
  ∑ j ∈ Finset.range k, if h.getLsbD j then X ^ j else 0

theorem lowPoly_all (h : BitVec 40) : lowPoly h 40 = bitPoly h := rfl

theorem lowPoly_succ (h : BitVec 40) (k : Nat) :
    lowPoly h (k + 1) = lowPoly h k + if h.getLsbD k then X ^ k else 0 :=
  Finset.sum_range_succ ..

/-- The loop invariant of R66: modulo the generator, the rounds that are left multiply the register by
`x^k` and add the `k` bits of `h` that are left, times `x^7`. -/
theorem crcGenerator_dvd_crcRounds (h : BitVec 40) (k : Nat) (c : Crc7) :
    crcGenerator ∣ bitPoly c * X ^ k + lowPoly h k * X ^ 7 - bitPoly (crcRounds h k c) := by
  induction k generalizing c with
  | zero => simp [lowPoly, crcRounds]
  | succ k ih =>
    have hround := (crcGenerator_dvd_crcRound c (h.getLsbD k)).mul_right (X ^ k)
    convert (ih (crcRound c (h.getLsbD k))).sub hround using 1
    rw [lowPoly_succ, crcRounds_succ]
    split <;> ring

theorem crcGenerator_dvd_crc7 (h : BitVec 40) :
    crcGenerator ∣ bitPoly h * X ^ 7 - bitPoly (crc7 h) := by
  have := crcGenerator_dvd_crcRounds h 40 (0#7)
  rwa [bitPoly_zero, zero_mul, zero_add, lowPoly_all] at this

end Remainder

/-! ## The syndrome of a frame (R67 (d), (e)) -/

/-- The CRC a frame should carry, XOR the one it carries: 0 exactly when the frame passes. -/
def frameSyndrome (f : Frame) : Crc7 := crc7 (frameHead f) ^^^ frameCrc f

theorem crcBad_eq_false_iff (f : Frame) : crcBad f = false ↔ frameSyndrome f = 0 := by
  simp [crcBad, frameSyndrome]

theorem crcBad_eq_true_iff (f : Frame) : crcBad f = true ↔ frameSyndrome f ≠ 0 := by
  simp [crcBad, frameSyndrome]

theorem frameSyndrome_xor (f g : Frame) :
    frameSyndrome (f ^^^ g) = frameSyndrome f ^^^ frameSyndrome g := by
  simp only [frameSyndrome, frameHead, frameCrc, BitVec.extractLsb'_xor, crc7_xor]
  ac_rfl

/-- A register that is shifted on with no bit of `h` coming in: multiplication by `x` modulo the
generator. -/
def crcShift (c : Crc7) : Crc7 := crcRound c false

theorem crcShift_xor (c d : Crc7) : crcShift (c ^^^ d) = crcShift c ^^^ crcShift d :=
  crcRound_xor c d false false

theorem crcShift_eq_zero : ∀ c : Crc7, crcShift c = 0 → c = 0 := by decide

theorem crcShift_injective : Function.Injective crcShift := by
  intro c d h
  have hz : crcShift (c ^^^ d) = 0 := by
    rw [crcShift_xor, h, BitVec.xor_self]; rfl
  exact BitVec.xor_eq_zero_iff.mp (crcShift_eq_zero _ hz)

theorem crcShift_iterate_ne_zero (j : Nat) : crcShift^[j] 1 ≠ 0 := by
  intro h
  have hz : crcShift^[j] 0 = 0 := Function.iterate_fixed (by decide) j
  exact absurd (crcShift_injective.iterate j (h.trans hz.symm)) (by decide)

/-- The powers of `x` modulo the generator do not come back to 1 within the length of a frame. -/
theorem crcShift_iterate_ne_one : ∀ n < 46, crcShift^[n + 1] 1 ≠ 1 := by decide

theorem crcShift_iterate_ne {j k : Nat} (hjk : j < k) (hk : k < 47) :
    crcShift^[j] 1 ≠ crcShift^[k] 1 := by
  intro h
  obtain ⟨n, rfl⟩ := Nat.exists_eq_add_of_lt hjk
  rw [Nat.add_assoc, Function.iterate_add_apply] at h
  exact crcShift_iterate_ne_one n (by omega) (crcShift_injective.iterate j h).symm

/-- Rounds on bits of `h` that are 0 only shift. -/
theorem crcRounds_of_zeros {h : BitVec 40} {k : Nat} (hz : ∀ j < k, h.getLsbD j = false) (c : Crc7) :
    crcRounds h k c = crcShift^[k] c := by
  induction k generalizing c with
  | zero => rfl
  | succ k ih =>
    rw [crcRounds_succ, hz k (Nat.lt_succ_self k), ih fun j hj => hz j (Nat.lt_succ_of_lt hj)]
    rfl

/-- The one bit of `x^m` feeds back once, and is then shifted `m` times. -/
theorem crcRounds_twoPow {m k : Nat} (hm : m < k) (hk : k ≤ 40) :
    crcRounds (BitVec.twoPow 40 m) k 0 = crcShift^[m] 0x09#7 := by
  induction k with
  | zero => omega
  | succ k ih =>
    rw [crcRounds_succ, BitVec.getLsbD_twoPow]
    rcases Nat.lt_succ_iff_lt_or_eq.mp hm with h | rfl
    · rw [decide_eq_false (Nat.ne_of_lt h), Bool.and_false]
      exact ih h (Nat.le_of_succ_le hk)
    · rw [decide_eq_true (Nat.lt_of_succ_le hk), decide_eq_true rfl]
      refine crcRounds_of_zeros (fun j hj => ?_) _
      rw [BitVec.getLsbD_twoPow, decide_eq_false (Nat.ne_of_gt hj), Bool.and_false]

/-- Bit `j + 1` of a frame stands for `x^j`: its syndrome alone is `x^j` modulo the generator. -/
theorem frameSyndrome_twoPow_succ {j : Nat} (hj : j < 47) :
    frameSyndrome (BitVec.twoPow 48 (j + 1)) = crcShift^[j] 1 := by
  by_cases h : j < 7
  · have low : ∀ j < 7, frameHead (BitVec.twoPow 48 (j + 1)) = 0 ∧
        frameCrc (BitVec.twoPow 48 (j + 1)) = crcShift^[j] 1 := by decide
    obtain ⟨hhead, hcrc⟩ := low j h
    rw [frameSyndrome, hhead, hcrc, crc7_zero]
    exact BitVec.zero_xor
  · obtain ⟨m, rfl⟩ := Nat.exists_eq_add_of_le' (Nat.le_of_not_lt h)
    have high : ∀ m < 40, frameHead (BitVec.twoPow 48 (m + 7 + 1)) = BitVec.twoPow 40 m ∧
        frameCrc (BitVec.twoPow 48 (m + 7 + 1)) = 0 := by decide
    obtain ⟨hhead, hcrc⟩ := high m (by omega)
    rw [frameSyndrome, hhead, hcrc, Function.iterate_add_apply, crc7,
      crcRounds_twoPow (by omega) le_rfl]
    exact BitVec.xor_zero

/-- The end bit stands for nothing. -/
theorem frameSyndrome_twoPow_zero : frameSyndrome (BitVec.twoPow 48 0) = 0 := by
  show crc7 0 ^^^ 0 = 0
  rw [crc7_zero]
  rfl

theorem frameSyndrome_twoPow_ne_zero {j : Nat} (h1 : 1 ≤ j) (h47 : j ≤ 47) :
    frameSyndrome (BitVec.twoPow 48 j) ≠ 0 := by
  obtain ⟨j, rfl⟩ := Nat.exists_eq_add_of_le' h1
  rw [frameSyndrome_twoPow_succ (by omega)]
  exact crcShift_iterate_ne_zero j

theorem frameSyndrome_twoPow_ne {j k : Nat} (hjk : j < k) (hk : k ≤ 47) :
    frameSyndrome (BitVec.twoPow 48 j) ≠ frameSyndrome (BitVec.twoPow 48 k) := by
  cases j with
  | zero =>
    rw [frameSyndrome_twoPow_zero]
    exact (frameSyndrome_twoPow_ne_zero hjk hk).symm
  | succ j =>
    obtain ⟨k, rfl⟩ := Nat.exists_eq_add_of_le' (Nat.zero_lt_of_lt hjk)
    rw [frameSyndrome_twoPow_succ (by omega), frameSyndrome_twoPow_succ (by omega)]
    exact crcShift_iterate_ne (by omega) (by omega)

end Sys2Proof.Machine

end

/-! PROOFS. The statements of 30_encoding.md. -/

section

namespace Sys2Proof.Proofs

open Sys2Proof.Machine

/-- Settles O1: the round trip of `decode_encode`. -/
theorem decodeEncodeAgree : Obligations.DecodeEncodeAgree := fun _ hw => decode_encode hw

/-- Settles O3: that the kept request decodes to the same instruction is the round trip of
`decode_encode` on what `r` decodes to. -/
theorem encodeDecodeAgree : Obligations.EncodeDecodeAgree := by
  refine ⟨fun _ _ h => encode_decodeFrame h, fun r => ?_⟩
  obtain ⟨hw, r', he, ho⟩ := encode_decodeRequest r
  have hd : decode (.request r') = .ok (decodeRequest r) := he ▸ decode_encode hw
  exact ⟨hw, r', he, ho, Except.ok.inj hd⟩

/-- Settles O6: every round is linear. -/
theorem crcLinear : Obligations.CrcLinear := ⟨crc7_zero, crc7_xor⟩

/-- Settles O7: the loop invariant of `crcGenerator_dvd_crcRounds`, started on the register 0. -/
theorem crcIsRemainder : Obligations.CrcIsRemainder := crcGenerator_dvd_crc7

/-- Settles O8: the syndrome is linear, so that of a changed good frame is that of the change. -/
theorem crcDetectsOneAndTwoBitErrors : Obligations.CrcDetectsOneAndTwoBitErrors := by
  intro f hf
  have change (e : Frame) : frameSyndrome (f ^^^ e) = frameSyndrome e := by
    rw [frameSyndrome_xor, (crcBad_eq_false_iff f).mp hf]
    exact BitVec.zero_xor
  refine ⟨fun j h1 h47 => ?_, fun j k hjk hk => ?_, ?_⟩
  · rw [crcBad_eq_true_iff, change]
    exact frameSyndrome_twoPow_ne_zero h1 h47
  · rw [crcBad_eq_true_iff, BitVec.xor_assoc, change, frameSyndrome_xor]
    exact fun h => frameSyndrome_twoPow_ne hjk hk (BitVec.xor_eq_zero_iff.mp h)
  · rw [crcBad_eq_false_iff, change]
    exact frameSyndrome_twoPow_zero

/-- Settles O44, by the operation whose guard holds. -/
theorem legalIssueIsNoError : Obligations.LegalIssueIsNoError :=
  fun _ _ hd hr hp hl => exec_issuedOk hd hr hp hl

/-- Settles O59: the frame is latched with a good CRC, the request takes the port, and the POLL finds
the legal command. -/
theorem commandRoundTrip : Obligations.CommandRoundTrip := by
  intro s index arg hs hp hb hc hr hl
  refine ⟨commandFrame_eq .., fun hi => ?_⟩
  have sent := step_env hi
  rw [runEnv_sendCommand, hostSendCommand_of_armed (by exact hs) (by exact hc) (by exact hr),
    State.latch_eq, crcBad_cmd] at sent
  refine ⟨_, (run_step sent).trans
    (run_readCommand rfl rfl hp hs hb rfl rfl ((frameLegal_cmd ..).trans hl)),
    ?_, rfl, frameIndex_closeFrame .., rfl⟩
  exact congrArg (fun c => s.results ++ [⟨.ok (.command c), []⟩]) (commandOf_cmd index arg)

/-- Settles O4, by the framing bits. -/
theorem frameRejectedByName : Obligations.FrameRejectedByName := by
  intro f
  refine ⟨fun h47 => ?_, fun h47 h0 => ?_, fun h47 h0 h46 => ?_, fun h47 h0 h46 => ?_⟩
  · simp only [decodeFrame, frameStartOk, h47]
    rfl
  · simp only [decodeFrame, frameStartOk, frameEndOk, h47, h0]
    rfl
  · simp only [decodeFrame, frameStartOk, frameEndOk, frameDirOk, h47, h0, h46]
    rfl
  · simp only [decodeFrame, frameStartOk, frameEndOk, frameDirOk, h47, h0, h46]
    rfl

/-- Settles O5: the decoder is run on the nine words. -/
theorem writtenOutWordsDecode : Obligations.WrittenOutWordsDecode := by
  unfold Obligations.WrittenOutWordsDecode
  decide

/-- Settles O17, by the state guard and the two operand codes. -/
theorem sendTuningAnswers : Obligations.SendTuningAnswers := by
  refine ⟨fun r h => by simp [decodeRequest, h], fun s mode width hp => ⟨?_, fun h => ?_⟩⟩
  · intro hph hb ha m w hm hw
    exact exec_sendTuning hp
      ((State.tuningLegal_iff s).mpr ⟨(Phase.operational_iff _).mpr hph, hb, ha⟩)
      (tuningModeOf_of_code hm) (tuningWidthOf_of_code hw)
  · refine exec_sendTuning_misuse hp ?_
    rw [tuningModeOf_eq_none_iff, tuningWidthOf_eq_none_iff, ← Bool.not_eq_true,
      State.tuningLegal_iff, Phase.operational_iff]
    rcases h with h | h | h | h | h <;> simp [h]

/-- Settles O22: all six reserved rows have the one meaning, and from 0x12 up every OPSEL is in one. -/
theorem reservedAnswersUnimplemented : Obligations.ReservedAnswersUnimplemented := by
  refine fun s op hp => ⟨fun i hi => exec_reserved ?_ hp, fun r h => ?_⟩
  · revert i
    simp [isReserved]
  · rw [decodeRequest_of_reserved h]
    exact isReserved_decodeReserved _

/-- Settles O24: whatever its format, the host sends the frame, and it is latched when the latch is
armed. -/
theorem anyFrameIsLatchedOrNothing : Obligations.AnyFrameIsLatchedOrNothing := by
  intro s f
  rw [runEnv_sendCommand]
  exact ⟨fun h => hostSendCommand_of_not_armed h f,
    fun h1 h2 h3 => (hostSendCommand_of_armed h1 h2 h3 f).trans
      (congrArg _ (s.latch_eq_verdict f))⟩

/-- Settles O23: both formats are frames the host sends, whose CRC field is the one given. -/
theorem framesAreLatched : Obligations.FramesAreLatched := by
  intro s index word crc
  refine ⟨fun h1 h2 h3 => ?_,
    fun h => ⟨hostSendCommand_of_not_armed h _, hostSendCommand_of_not_armed h _⟩⟩
  have latched (dir : Bool) :=
    (hostSendCommand_of_armed h1 h2 h3 (closeFrame (headBits dir index word) crc)).trans
      (congrArg _ (s.latch_eq_verdict _))
  simp only [frameCrc_closeFrame] at latched
  exact ⟨latched true, latched false⟩

end Sys2Proof.Proofs

end

/-! SUPPORT. The lifecycle operations as equations on an idle port, and the buffer a driver instruction
hands back with its result. -/

section

namespace Sys2Proof.Machine

variable {s t : State}

/-! ## Answers on an idle port -/

theorem onIdlePort_complete (hp : s.port = .idle) (r : Result) (buf : List Byte) :
    onIdlePort s (s.complete r buf) = .next (s.answers r buf) :=
  (onIdlePort_of_idle hp).trans (congrArg _ (State.complete_of_idle hp r buf))

/-- An operation with one guard: it answers from the state it writes, or is misuse (R175). -/
theorem onIdlePort_guarded {c : Prop} [Decidable c] {u : State} (hp : s.port = .idle)
    (hu : u.port = .idle) (r : Result) (buf : List Byte) :
    onIdlePort s (if c then u.complete r buf else s.misuse buf) =
      .next (if c then u.answers r buf else s.answers (.err .general) buf) := by
  rw [onIdlePort_of_idle hp, State.complete_of_idle hu, State.misuse_of_idle hp]

/-- R93. -/
theorem exec_setupBus (hp : s.port = .idle) : exec .setupBus s = .next
    (if s.phase.operational then ({ s with busReady := true }).answers (.ok .unit) []
      else s.answers (.err .general) []) :=
  onIdlePort_guarded hp (by exact hp) _ _

/-- R94. -/
theorem exec_init (hp : s.port = .idle) : exec .init s = .next
    (if initLegal s.phase then s.initialize.answers (.ok .unit) []
      else s.answers (.err .general) []) :=
  onIdlePort_guarded hp (by exact hp) _ _

/-! ## The caller's buffer -/

/-- The issue step of a driver instruction gives its caller no result, or one, with the caller's own
buffer. -/
theorem exec_results {i : Instr} (hd : isDriverInstr i = true) (h : exec i s = .next t) :
    t.results = s.results ∨ ∃ r, t.results = s.results ++ [⟨r, callerBuf i⟩] := by
  cases i <;> try (obtain ⟨-, rfl⟩ := onIdlePort_next_iff.mp h)
  case cmd48 | rsp48 => cases hd
  case cardType | cardMode | reserved12To13 | reserved14To17 | reserved18To1F | reserved20To3F |
      reserved40To7F | reserved80ToFF => exact .inr ⟨_, rfl⟩
  case waitForReset | waitWhileBusy | readCommand =>
    split
    · exact .inl rfl
    · exact .inr ⟨_, rfl⟩
  case readData | writeData =>
    split
    · split
      · exact .inr ⟨_, rfl⟩
      · exact .inl rfl
    · exact .inr ⟨_, rfl⟩
  all_goals split <;> exact .inr ⟨_, rfl⟩

/-- A driver instruction that only answers hands back its caller's buffer. -/
theorem answers_callerBuf {i : Instr} {r : Result} {buf : List Byte} (hd : isDriverInstr i = true)
    (h : exec i s = .next (s.answers r buf)) : s.answers r buf = s.answers r (callerBuf i) := by
  have hb : buf = callerBuf i := by
    rcases exec_results hd h with he | ⟨r', he⟩ <;> simp_all
  rw [hb]

end Sys2Proof.Machine

end

/-! PROOFS. The statements of 40_lifecycle.md. -/

section

namespace Sys2Proof.Proofs

open Sys2Proof.Machine

/-- Settles O9: neither query has a guard. -/
theorem identityQueriesAnswer : Obligations.IdentityQueriesAnswer :=
  ⟨fun r => ⟨fun h => by simp [decodeRequest, h], fun h => by simp [decodeRequest, h]⟩,
    fun _ hp => ⟨onIdlePort_complete hp _ _, onIdlePort_complete hp _ _⟩⟩

/-- Settles O10, by the guard of `setup_bus`. -/
theorem setupBusAnswers : Obligations.SetupBusAnswers := by
  refine ⟨fun r h => by simp [decodeRequest, h], fun s hp => ?_⟩
  rw [exec_setupBus hp, ← Phase.operational_iff]
  exact ⟨fun h => by rw [if_pos h], fun h => by rw [if_neg h]⟩

/-- Settles O11, by the guard of `init`; `State.initialize` writes the fields the statement lists. -/
theorem initAnswers : Obligations.InitAnswers := by
  refine ⟨fun r h => by simp [decodeRequest, h], fun s hp => ?_⟩
  rw [exec_init hp, ← initLegal_iff]
  exact ⟨fun h => by rw [if_pos h]; rfl, fun h => by rw [if_neg h]⟩

/-- Settles O37, by the effects of each instruction: a report has none but its answer, a writer of an
interrupt register also the write. -/
theorem reportAndInterruptFrame : Obligations.ReportAndInterruptFrame := by
  intro s t w op
  refine ⟨fun i hi h => ?_, fun i hi h => ?_, fun i hi h => ?_⟩
  · fin_cases hi <;> obtain ⟨-, he⟩ := exec_effect rfl h <;> cases he
    all_goals exact ⟨_, answers_callerBuf rfl h⟩
  · fin_cases hi <;> obtain ⟨-, he⟩ := exec_effect rfl h <;> cases he
    case answer | answer => exact ⟨_, s.intSt, answers_callerBuf rfl h⟩
    case setInterrupt | clearAllInterrupt => exact ⟨_, _, rfl⟩
  · fin_cases hi <;> obtain ⟨-, he⟩ := exec_effect rfl h <;> cases he
    case answer | answer => exact ⟨_, s.rintSt, answers_callerBuf rfl h⟩
    case setResponseInterrupt | clearAllResponseInterrupt => exact ⟨_, _, rfl⟩

/-- Settles O39, by the effects of each operation: misuse, which only answers, or its own writes. -/
theorem controlOperationsFrame : Obligations.ControlOperationsFrame := by
  intro s t a b payload index withCrc
  refine ⟨fun h => ?_, fun h => ?_, fun h => ?_, fun h => ?_⟩ <;>
    obtain ⟨-, he⟩ := exec_effect rfl h
  · cases he with
    | answer _ r => exact ⟨r, answers_callerBuf rfl h⟩
    | setupBus => exact ⟨_, rfl⟩
  · cases he with
    | answer _ r => exact ⟨r, answers_callerBuf rfl h⟩
    | sendTuning => exact ⟨_, rfl⟩
  · cases he with
    | answer _ r => exact ⟨r, answers_callerBuf rfl h⟩
    | writeResponse => exact ⟨_, rfl⟩
  · cases he with
    | answer _ r =>
      exact ⟨⟨r, congrArg State.results (answers_callerBuf rfl h)⟩,
        rfl, rfl, rfl, rfl, rfl, rfl, rfl, rfl, rfl⟩
    | init => exact ⟨⟨_, rfl⟩, rfl, rfl, rfl, rfl, rfl, rfl, rfl, rfl, rfl⟩

end Sys2Proof.Proofs

end

/-! SUPPORT. The phase (R12, R100): POLL and its effects are one, each row of the table of R100 runs
to the phase it names, and each effect that changes the phase is a row of it. -/

section

namespace Sys2Proof.Machine

variable {s t : State} {p : Phase}

/-! ## POLL and its effects are one -/

/-- The converse of `not_cfgExpired`. -/
theorem cfgExpired_eq_false {tCfgUs : Option Nat} {elapsed : Nat}
    (h : ∀ t, tCfgUs = some t → elapsed < t) : cfgExpired tCfgUs elapsed = false := by
  rw [Bool.eq_false_iff, Ne, cfgExpired_iff]
  rintro ⟨t, ht, hle⟩
  exact (h t ht).not_ge hle

/-- A POLL that finds neither its condition nor its deadline changes nothing. -/
theorem State.Waits.runs (h : s.Waits) : runEnv .poll s = .next s := by
  show poll s = .next s
  cases h with
  | idle hp => simp [poll, hp]
  | command _ hp hc ht => simp [poll, hp, pollReadCommand, hc, cfgExpired_eq_false ht]
  | read _ _ _ hp hx hf ht => simp [poll, hp, pollReadData, hx, hf, cfgExpired_eq_false ht]
  | write _ _ _ hp hx hf ht =>
    simp [poll, hp, pollWriteData, hx, State.wrReady, hf.not_gt, cfgExpired_eq_false ht]
  | busy _ _ hp hb ht => simp [poll, hp, pollWaitWhileBusy, hb, ht.not_ge]
  | reset _ _ _ hp hr ht => simp [poll, hp, pollWaitForReset, hr, ht.not_ge]

/-- The converse of `poll_effect`. -/
theorem PollEffect.runs (h : PollEffect s t) : runEnv .poll s = .next t := by
  show poll s = .next t
  cases h with
  | waiting hw => exact hw.runs
  | commandCrc _ hp hc hf => simp [poll, hp, pollReadCommand, hc, hf]
  | commandIllegal _ hp hc hf hl => simp [poll, hp, pollReadCommand, hc, hf, hl]
  | commandOk _ hp hc hf hl => simp [poll, hp, pollReadCommand, hc, hf, hl]
  | commandTimeout _ _ hp hc ht hle => simp [poll, hp, pollReadCommand, hc, ht, hle]
  | readFault _ _ _ hp hx => simp [poll, hp, pollReadData, hx]
  | readByte _ _ _ _ _ hp hx hf hl =>
    simp [poll, hp, pollReadData, hx, hf, bufWrite, Nat.lt_of_succ_lt hl, hl.ne]
  | readLast _ _ _ _ _ hp hx hf hl => simp [poll, hp, pollReadData, hx, hf, bufWrite, ← hl]
  | readTimeout _ _ _ _ hp hx hf ht hle => simp [poll, hp, pollReadData, hx, hf, ht, hle]
  | writeFault _ _ _ hp hx => simp [poll, hp, pollWriteData, hx]
  | writeByte _ _ _ _ hp hx hf hb hl =>
    simp [poll, hp, pollWriteData, hx, s.wrReady_iff.mpr hf, bufRead, hb, hl.ne, fifoPut]
  | writeLast _ _ _ _ hp hx hf hb hl =>
    simp [poll, hp, pollWriteData, hx, s.wrReady_iff.mpr hf, bufRead, hb, hl, fifoPut]
  | writeTimeout _ _ _ _ hp hx hf ht hle =>
    simp [poll, hp, pollWriteData, hx, State.wrReady, hf.not_gt, ht, hle]
  | busyDone _ _ hp hb => simp [poll, hp, pollWaitWhileBusy, hb]
  | busyTimeout _ _ hp hb hle => simp [poll, hp, pollWaitWhileBusy, hb, hle]
  | resetDone _ _ _ hp hr => simp [poll, hp, pollWaitForReset, hr]
  | resetTimeout _ _ _ hp hr hle => simp [poll, hp, pollWaitForReset, hr, hle]

/-! ## The operations that write the phase -/

/-- R114: the phase `write_response` enters, by `DATA_CMD`. -/
theorem phaseAfterResponse_eq (s : State) : phaseAfterResponse s =
    if s.curIndex ∈ s.params.dataCmds then .dataTransfer else .responseReady := by
  simp [phaseAfterResponse, Params.isDataCmd]

/-- R114. -/
theorem exec_writeResponse {index : Index} {withCrc : Bool} {payload : Word} (hp : s.port = .idle)
    (h1 : s.phase = .commandPending) (h2 : s.busReady = true) :
    exec (.writeResponse index withCrc payload) s = .next
      (({ s with respReg := encodeResponse index payload withCrc, respReady := true,
                 phase := phaseAfterResponse s }).answers (.ok .unit) []) := by
  have hx : exec (.writeResponse index withCrc payload) s = _ :=
    onIdlePort_guarded hp (by exact hp) _ _
  rw [hx, if_pos ⟨h1, h2⟩]

/-- R122, R125: a pump of length 0 is done at once. -/
theorem exec_pump_nil {i : Instr} (hi : i = .readData [] ∨ i = .writeData []) (hp : s.port = .idle)
    (hl : s.pumpLegal = true) :
    exec i s = .next (({ s with phase := .standby }).answers (.ok .unit) []) := by
  rcases hi with rfl | rfl <;>
    exact (onIdlePort_guarded (c := s.pumpLegal = true) hp (by exact hp) _ _).trans
      (congrArg _ (if_pos hl))

/-- R35 item 2: while a reset line is asserted the block is initialized. -/
theorem State.Inv.initialized_of_request (h : s.Inv) {r : ResetLine} (hr : s.rstReq.get r = true) :
    s.phase ≠ .uninitialized := by
  intro hu
  obtain ⟨-, -, -, -, -, -, -, -, hreq⟩ := h.listed.uninitialized hu
  cases (hreq r).symm.trans hr

/-! ## Every row of R100 writes the phase it names -/

open PhaseRow in
/-- The rows do not look at the inputs and the draw counter (log 1). -/
theorem PhaseRow.fetch {i : Input} (h : PhaseRow s i p) (inputs : List Input) (draws : Nat) :
    PhaseRow { s with inputs := inputs, draws := draws } i p :=
  let u : State := { s with inputs := inputs, draws := draws }
  h.rec (@t1 u) (@t2 u) (@t3 u) (@t4 u) (@t5 u) (@t6 u) (@t7 u) (@t8 u) (@t9 u) (@t9Empty u)
    (@t10 u) (@t11 u) (@t12 u) (@t13 u) (@t14 u) (@t15 u) (@t16 u)

/-- The rows of POLL are effects of POLL. -/
theorem PhaseRow.poll_effect (h : PhaseRow s (.env .poll) p) :
    ∃ t, PollEffect s t ∧ t.phase = p := by
  cases h with
  | t2 elapsed hp _ hc hf hl => exact ⟨_, .commandOk elapsed hp hc hf hl, rfl⟩
  | t3 elapsed hp _ hc hf => exact ⟨_, .commandCrc elapsed hp hc hf, rfl⟩
  | t4 elapsed hp _ hc hf hl => exact ⟨_, .commandIllegal elapsed hp hc hf hl, rfl⟩
  | t5 elapsed t hp _ hc ht hle => exact ⟨_, .commandTimeout elapsed t hp hc ht hle, rfl⟩
  | t9 _ hx hb =>
    obtain ⟨buf, i, elapsed, hp, hl, hf⟩ | ⟨buf, i, elapsed, hp, hl, hf⟩ := hb
    · obtain ⟨b, rest, hf⟩ := List.exists_cons_of_ne_nil hf
      exact ⟨_, .readLast buf i elapsed b rest hp hx hf hl, rfl⟩
    · have hb := List.getElem?_eq_getElem (show i < buf.length by omega)
      exact ⟨_, .writeLast buf i elapsed _ hp hx hf hb hl, rfl⟩
  | t10 _ hp hx =>
    cases hport : s.port with
    | readData buf i elapsed => exact ⟨_, .readFault buf i elapsed hport hx, rfl⟩
    | writeData buf i elapsed => exact ⟨_, .writeFault buf i elapsed hport hx, rfl⟩
    | idle | readCommand | waitWhileBusy | waitForReset => simp [hport, Port.isPump] at hp
  | t11 _ hx he =>
    obtain ⟨buf, i, elapsed, t, hp, hf, ht, hle⟩ | ⟨buf, i, elapsed, t, hp, hf, ht, hle⟩ := he
    · exact ⟨_, .readTimeout buf i elapsed t hp hx hf ht hle, rfl⟩
    · exact ⟨_, .writeTimeout buf i elapsed t hp hx hf ht hle, rfl⟩
  | t12 timeoutUs elapsed hp _ _ hb hle => exact ⟨_, .busyTimeout timeoutUs elapsed hp hb hle, rfl⟩
  | t13 line timeoutUs elapsed hp _ hr hle =>
    exact ⟨_, .resetTimeout line timeoutUs elapsed hp hr hle, rfl⟩

/-- A row of another agent's step runs to the phase it names. -/
theorem PhaseRow.runs_env {e : EnvStep} (hs : s.Inv) (h : PhaseRow s (.env e) p) :
    ∃ t, runEnv e s = .next t ∧ t.phase = p := by
  cases e with
  | poll =>
    obtain ⟨t, ht, hp⟩ := h.poll_effect
    exact ⟨t, ht.runs, hp⟩
  | takeResponse =>
    cases h with
    | t8 hp =>
      exact ⟨_, congrArg Host.Outcome.next (if_pos (hs.listed.responseReady hp)), if_pos hp⟩
  | hwReset line =>
    cases h with
    | t14 hr _ => exact ⟨_, runEnv_hwReset hr, rfl⟩
    | t15 hr hp =>
      exact ⟨_, runEnv_hwReset hr, by simp [State.performReset, phaseAfterReset_cmd, hp]⟩
    | t16 hr hp =>
      exact ⟨_, runEnv_hwReset hr, by simp [State.performReset, phaseAfterReset_data, hp]⟩
  | sendCommand | pushByte | popByte | busFault | tuningDone | tick => cases h

/-- A row of a request runs, on an idle port, to the phase it names. -/
theorem PhaseRow.runs_request {r : Request} (hs : s.Inv) (hp : s.port = .idle)
    (h : PhaseRow s (.request r) p) : ∃ t, exec (decodeRequest r) s = .next t ∧ t.phase = p := by
  cases h with
  | t1 _ hi hq =>
    rw [hi, exec_init hp, if_pos ((initLegal_iff _).mpr (by simpa using hq))]
    exact ⟨_, rfl, rfl⟩
  | t6 _ index withCrc payload hi hq hc =>
    rw [hi, exec_writeResponse hp hq (hs.listed.busReady (.inl hq))]
    exact ⟨_, rfl, (phaseAfterResponse_eq s).trans (if_neg hc)⟩
  | t7 _ index withCrc payload hi hq hc =>
    rw [hi, exec_writeResponse hp hq (hs.listed.busReady (.inl hq))]
    exact ⟨_, rfl, (phaseAfterResponse_eq s).trans (if_pos hc)⟩
  | t9Empty _ hi hq => exact ⟨_, exec_pump_nil hi hp (hs.pumpLegal hq), rfl⟩

/-! ## Every effect that changes the phase is a row of R100 -/

/-- A request that changes the phase is T1, T6, T7 or T9. -/
theorem DriverEffect.phaseRow {r : Request} (h : DriverEffect s (decodeRequest r) t) :
    t.phase = s.phase ∨ PhaseRow s (.request r) t.phase := by
  generalize hi : decodeRequest r = i at h
  cases h
  case init hl => exact .inr (.t1 r hi (by simpa [initLegal_iff] using hl))
  case readNothing hd _ => exact .inr (.t9Empty r (.inl hi) hd)
  case writeNothing hd _ => exact .inr (.t9Empty r (.inr hi) hd)
  case writeResponse index withCrc payload hc _ =>
    refine .inr ?_
    rw [State.answers_phase, phaseAfterResponse_eq]
    split
    · exact .t7 r index withCrc payload hi hc ‹_›
    · exact .t6 r index withCrc payload hi hc ‹_›
  all_goals exact .inl rfl

/-- A POLL that changes the phase is T2 to T5 or T9 to T13. -/
theorem PollEffect.phaseRow (hs : s.Inv) (h : PollEffect s t) :
    t.phase = s.phase ∨ PhaseRow s (.env .poll) t.phase := by
  have standby {elapsed} := hs.listed.portReadCommand elapsed
  have reading {buf i elapsed} hp := (hs.listed.portReadData buf i elapsed hp).1
  have writing {buf i elapsed} hp := (hs.listed.portWriteData buf i elapsed hp).1
  cases h with
  | waiting | readByte | writeByte | busyDone | resetDone => exact .inl rfl
  | commandCrc elapsed hp hc hf => exact .inr (.t3 elapsed hp (standby hp) hc hf)
  | commandIllegal elapsed hp hc hf hl => exact .inr (.t4 elapsed hp (standby hp) hc hf hl)
  | commandOk elapsed hp hc hf hl => exact .inr (.t2 elapsed hp (standby hp) hc hf hl)
  | commandTimeout elapsed t hp hc ht hle =>
    exact .inr (.t5 elapsed t hp (standby hp) hc ht hle)
  | readFault buf i elapsed hp hx => exact .inr (.t10 (reading hp) (by rw [hp]; rfl) hx)
  | readLast buf i elapsed b rest hp hx hf hl =>
    exact .inr (.t9 (reading hp) hx (.inl ⟨buf, i, elapsed, hp, hl, by simp [hf]⟩))
  | readTimeout buf i elapsed t hp hx hf ht hle =>
    exact .inr (.t11 (reading hp) hx (.inl ⟨buf, i, elapsed, t, hp, hf, ht, hle⟩))
  | writeFault buf i elapsed hp hx => exact .inr (.t10 (writing hp) (by rw [hp]; rfl) hx)
  | writeLast buf i elapsed b hp hx hf _ hl =>
    exact .inr (.t9 (writing hp) hx (.inr ⟨buf, i, elapsed, hp, hl, hf⟩))
  | writeTimeout buf i elapsed t hp hx hf ht hle =>
    exact .inr (.t11 (writing hp) hx (.inr ⟨buf, i, elapsed, t, hp, hf, ht, hle⟩))
  | busyTimeout timeoutUs elapsed hp hb hle =>
    have ho := hs.more.waitWhileBusyPhase _ _ hp
    exact .inr (.t12 timeoutUs elapsed hp (fun hu => by simp [hu] at ho)
      (fun hu => by simp [hu] at ho) hb hle)
  | resetTimeout line timeoutUs elapsed hp hr hle =>
    exact .inr (.t13 line timeoutUs elapsed hp (hs.initialized_of_request hr) hr hle)

/-- A step of another agent that changes the phase is T8, T14, T15 or T16, or a row of POLL. -/
theorem EnvEffect.phaseRow {e : EnvStep} (hs : s.Inv) (h : EnvEffect s e t) :
    t.phase = s.phase ∨ PhaseRow s (.env e) t.phase := by
  cases h
  case takeResponse =>
    dsimp only
    split
    · exact .inr (.t8 ‹_›)
    · exact .inl rfl
  case resetAll hr => exact .inr (.t14 hr (hs.initialized_of_request (r := .all) hr))
  case resetCmd hr =>
    rw [State.resetCmdLine_phase, phaseAfterReset_cmd]
    split
    case isTrue hp => exact .inr (.t15 hr (by simpa using hp))
    case isFalse => exact .inl rfl
  case resetData hr =>
    rw [State.resetDataLine_phase, phaseAfterReset_data]
    split
    case isTrue hp => exact .inr (.t16 hr (by simpa using hp))
    case isFalse => exact .inl rfl
  case poll hp => exact hp.phaseRow hs
  all_goals exact .inl rfl

/-! ## Leaving Error (R179) -/

/-- Only `init` and the three reset lines have a row that leaves Error. -/
theorem PhaseRow.exit_of_error {i : Input} (h : PhaseRow s i p) (he : s.phase = .error)
    (hp : p ≠ .error) :
    (∃ r, i = .request r ∧ decodeRequest r = .init ∧ p = .standby) ∨
    (i = .env (.hwReset .all) ∧ s.rstReq.all = true ∧ p = .uninitialized) ∨
    (i = .env (.hwReset .cmd) ∧ s.rstReq.cmd = true ∧ p = .standby) ∨
    (i = .env (.hwReset .data) ∧ s.rstReq.data = true ∧ p = .standby) := by
  cases h
  case t1 r hi _ => exact .inl ⟨r, rfl, hi, rfl⟩
  case t14 hr _ => exact .inr (.inl ⟨rfl, hr, rfl⟩)
  case t15 hr _ => exact .inr (.inr (.inl ⟨rfl, hr, rfl⟩))
  case t16 hr _ => exact .inr (.inr (.inr ⟨rfl, hr, rfl⟩))
  case t3 | t4 | t5 | t10 | t11 | t12 | t13 => exact absurd rfl hp
  all_goals cases he.symm.trans ‹s.phase = _›

/-- R94: `init` that changes the phase clears `bus_ready`. -/
theorem DriverEffect.busReady_of_init (h : DriverEffect s .init t) (hp : t.phase ≠ s.phase) :
    t.busReady = false := by
  cases h with
  | answer => exact absurd rfl hp
  | init => rfl

/-- R156: of the other agents' steps only line All writes `bus_ready`. -/
theorem EnvEffect.busReady {e : EnvStep} (h : EnvEffect s e t) (he : e ≠ .hwReset .all) :
    t.busReady = s.busReady :=
  (h.codecRegisters.resolve_left he).1

end Sys2Proof.Machine

end

/-! PROOFS. The statements of 41_phase_machine.md. -/

section

namespace Sys2Proof.Proofs

open Sys2Proof.Machine

/-- Settles O45: by the kind of the step; an effect that changes the phase is a row, and a row runs to
the phase it names. -/
theorem phaseWrittenOnlyByTable : Obligations.PhaseWrittenOnlyByTable := by
  refine ⟨rfl, fun s t h hs => ?_⟩
  rcases step_cases s with ⟨r, rest, _, hp, hn, hstep⟩ | ⟨e, inputs, draws, hn, hstep⟩
  all_goals
    rw [hn]
    rw [hstep] at hs
  · refine ⟨fun hne => ?_, fun p hrow => ?_⟩
    · obtain ⟨-, hd⟩ := exec_effect (isDriverInstr_decodeRequest r) hs
      exact (hd.phaseRow.resolve_left hne).fetch s.inputs s.draws
    · obtain ⟨u, hu, hphase⟩ := (hrow.fetch rest s.draws).runs_request (h.fetch rest s.draws) hp
      cases hs.symm.trans hu
      exact hphase
  · have hf := h.fetch inputs draws
    refine ⟨fun hne => ?_, fun p hrow => ?_⟩
    · exact (((env_effect hs).phaseRow hf).resolve_left hne).fetch s.inputs s.draws
    · obtain ⟨u, hu, hphase⟩ := (hrow.fetch inputs draws).runs_env hf
      cases hs.symm.trans hu
      exact hphase

/-- Settles O47: the four rows of R100 that leave Error, and what their steps do to `bus_ready`. -/
theorem errorLeftByFourSteps : Obligations.ErrorLeftByFourSteps := by
  intro s t h he hs hp
  have hne : t.phase ≠ s.phase := he ▸ hp
  have exits := ((phaseWrittenOnlyByTable.2 s t h hs).1 hne).exit_of_error he hp
  rcases step_effect hs with ⟨r, _, _, hn, _, hd⟩ | ⟨e, _, _, hn, hv⟩
  · obtain ⟨r', hi, hr, hq⟩ := exits.resolve_right (by simp [hn])
    cases hn.symm.trans hi
    exact .inl ⟨r, hn, hr, hq, (hr ▸ hd).busReady_of_init hne⟩
  · rcases exits.resolve_left (by simp [hn]) with ⟨hi, hr, hq⟩ | ⟨hi, hr, hq⟩ | ⟨hi, hr, hq⟩
    · exact .inr (.inl ⟨hi, hr, hq⟩)
    all_goals cases hn.symm.trans hi
    · exact .inr (.inr (.inl ⟨hn, hr, hq, hv.busReady nofun⟩))
    · exact .inr (.inr (.inr ⟨hn, hr, hq, hv.busReady nofun⟩))

end Sys2Proof.Proofs

end

/-! SUPPORT. The codec's operations whose guard fails, and the frames of R112 and R114 in their bits. -/

section

namespace Sys2Proof.Machine

variable {s : State}

/-- R175: on an idle port an operation whose guard fails is misuse, and only answers. -/
theorem onIdlePort_misuse {c : Prop} [Decidable c] {u : State} (hp : s.port = .idle) (hc : ¬ c)
    (buf : List Byte) : onIdlePort s (if c then u else s.misuse buf) =
      .next (s.answers (.err .general) buf) := by
  rw [onIdlePort_of_idle hp, if_neg hc, State.misuse_of_idle hp]

/-- R110, R114: the guard fails with its phase or with `bus_ready`. -/
theorem not_codecGuard {p q : Phase} {b : Bool} (h : p ≠ q ∨ b = false) : ¬ (p = q ∧ b = true) := by
  rintro ⟨rfl, rfl⟩
  simp at h

/-- R64 in bits: start and direction 0, the CRC or seven ones, end 1. -/
theorem encodeResponse_eq (index : Index) (payload : Word) (withCrc : Bool) :
    encodeResponse index payload withCrc = 0#2 ++ index ++ payload ++
      (if withCrc then crc7 (0#2 ++ index ++ payload : BitVec 40) else 0b1111111#7) ++ 1#1 := rfl

/-- R71 in bits: the framing of a command, and the host's own check of index and argument. -/
theorem frameLegal_iff (p : Params) (f : Frame) : frameLegal p f = true ↔
    f.getLsbD 47 = false ∧ f.getLsbD 46 = true ∧ f.getLsbD 0 = true ∧
      p.legalCmd (f.extractLsb' 40 6) (f.extractLsb' 8 32) = true := by
  simp [frameLegal, frameWellFormed, frameStartOk, frameDirOk, frameEndOk, frameIndex, frameArg,
    and_assoc]

end Sys2Proof.Machine

end

/-! PROOFS. The statements of 42_command_response.md. -/

section

namespace Sys2Proof.Proofs

open Sys2Proof.Machine

/-- Settles O20, by the guard of `read_command`. -/
theorem readCommandIssues : Obligations.ReadCommandIssues :=
  ⟨fun r h => by simp [decodeRequest, h], fun _ hp =>
    ⟨exec_readCommand hp, fun h => onIdlePort_misuse hp (not_codecGuard h) []⟩⟩

/-- Settles O21, by the guard of `write_response`; the frame is R64's, the phase R114's. -/
theorem writeResponseAnswers : Obligations.WriteResponseAnswers := by
  refine ⟨fun r h => by simp [decodeRequest, h], fun s index withCrc payload hp =>
    ⟨fun hph hb => ?_, fun h => onIdlePort_misuse hp (not_codecGuard h) []⟩⟩
  rw [exec_writeResponse hp hph hb, encodeResponse_eq, phaseAfterResponse_eq]

/-- Settles O25: each outcome is one effect of a POLL. -/
theorem pollReadCommandOutcomes : Obligations.PollReadCommandOutcomes := by
  intro s elapsed hp
  simp only [← frameLegal_iff, Bool.not_eq_true]
  refine ⟨fun hc hf => ?_, fun hc hf hl => ?_, fun hc hf hl => ?_, fun t hc ht hle => ?_,
    fun hc ht => ?_⟩
  · exact (PollEffect.commandCrc elapsed hp hc hf).runs
  · exact (PollEffect.commandIllegal elapsed hp hc hf hl).runs
  · exact (PollEffect.commandOk elapsed hp hc hf hl).runs
  · exact (PollEffect.commandTimeout elapsed t hp hc ht hle).runs
  · exact (State.Waits.command elapsed hp hc ht).runs

/-- Settles O38, by the effects of each operation: misuse, which only answers, or its issue. -/
theorem blockingIssueFrame : Obligations.BlockingIssueFrame := by
  intro s t a b buf
  refine ⟨fun i hi h => ?_, fun h => ?_, fun i hi h => ?_⟩
  · fin_cases hi <;> obtain ⟨-, he⟩ := exec_effect rfl h <;> cases he
    case answer | answer | readCommand | waitWhileBusy => rfl
  · obtain ⟨-, he⟩ := exec_effect rfl h
    cases he with
    | answer => rfl
    | waitForReset => rfl
  · fin_cases hi <;> obtain ⟨-, he⟩ := exec_effect rfl h <;> cases he
    case answer | answer | readNothing | writeNothing | readData | writeData => rfl

end Sys2Proof.Proofs

end

/-! SUPPORT. The data engine: its issue steps by their guards, and, for R135 (c), how each step of another
agent brings the operation in flight nearer to its end. -/

section

namespace Sys2Proof.Machine

variable {s t u v : State}

/-! ## The issue steps (R120, R122, R125, R133) -/

/-- R120. -/
theorem exec_fifoReady {status : Word} {d : FifoStatus} (hp : s.port = .idle)
    (ho : s.phase.operational = true) (hd : fifoStatusOf status = some d) :
    exec (.fifoReady status) s = .next (s.answers (.ok (.bool (s.ready d))) []) := by
  have hx : exec (.fifoReady status) s = _ := onIdlePort_of_idle hp
  rw [hx, ho, hd, ← State.complete_of_idle hp]

theorem exec_fifoReady_misuse {status : Word} (hp : s.port = .idle)
    (h : s.phase.operational = false ∨ fifoStatusOf status = none) :
    exec (.fifoReady status) s = .next (s.answers (.err .general) []) := by
  have hx : exec (.fifoReady status) s = _ := onIdlePort_of_idle hp
  rw [hx, ← State.misuse_of_idle hp]
  congr 1
  split
  · simp_all
  · rfl

/-- R133. -/
theorem exec_waitForReset {line : Word} {r : ResetLine} (hp : s.port = .idle)
    (hi : s.phase ≠ .uninitialized) (hr : resetLineOf line = some r) (timeout : Word) :
    exec (.waitForReset line timeout) s = .next
      { s with rstReq := s.rstReq.set true r, port := .waitForReset r timeout 0 } := by
  have hx : exec (.waitForReset line timeout) s = _ := onIdlePort_of_idle hp
  rw [hx, (Phase.initialized_iff _).mpr hi, hr]

theorem exec_waitForReset_misuse {line : Word} (hp : s.port = .idle)
    (h : s.phase = .uninitialized ∨ resetLineOf line = none) (timeout : Word) :
    exec (.waitForReset line timeout) s = .next (s.answers (.err .general) []) := by
  have hx : exec (.waitForReset line timeout) s = _ := onIdlePort_of_idle hp
  rw [hx, ← State.misuse_of_idle hp]
  congr 1
  split
  · simp_all [Phase.initialized]
  · rfl

/-- R122, R125: the guard of a pump fails with the phase or with `bus_ready`. -/
theorem State.not_pumpLegal (h : s.phase ≠ .dataTransfer ∨ s.busReady = false) :
    ¬ s.pumpLegal = true :=
  fun hl => not_codecGuard h ((State.pumpLegal_iff s).mp hl)

/-- R122, R125: the issue of a pump with a byte to move takes the port. -/
theorem onIdlePort_pump {buf : List Byte} {p : Port} (hp : s.port = .idle)
    (hl : s.pumpLegal = true) (hb : buf ≠ []) :
    onIdlePort s (if s.pumpLegal then
      if buf.isEmpty then t else { s with port := p }
      else u) = .next { s with port := p } := by
  rw [onIdlePort_of_idle hp, if_pos hl, if_neg (by simpa using hb)]

/-! ## What is left of the operation in flight (R182, R135 (c)) -/

/-- The `elapsed` of the record in flight (R13). -/
def Port.elapsed : Port → Nat
  | .idle => 0
  | .readCommand elapsed => elapsed
  | .readData _ _ elapsed => elapsed
  | .writeData _ _ elapsed => elapsed
  | .waitWhileBusy _ elapsed => elapsed
  | .waitForReset _ _ elapsed => elapsed

/-- R160: a TICK counts the `elapsed` of an operation in flight up. -/
theorem Port.elapsed_tick {p : Port} (h : p ≠ .idle) : p.tick.elapsed = p.elapsed + 1 := by
  cases p
  case idle => exact absurd rfl h
  all_goals rfl

namespace State

theorem inFlight_of_timeoutOf {n : Nat} (h : s.timeoutOf = some n) : s.port ≠ .idle := by
  intro hp
  simp [timeoutOf, hp] at h

/-- Counting `elapsed` up, or a write of another field, leaves the timeout and the POLLs still needed. -/
theorem deadline_of_port (hp : t.port = s.port ∨ t.port = s.port.tick) (hq : t.params = s.params) :
    t.timeoutOf = s.timeoutOf ∧ t.pollsLeft = s.pollsLeft := by
  simp only [timeoutOf, pollsLeft, hq]
  rcases hp with hp | hp <;> rw [hp]
  · exact ⟨rfl, rfl⟩
  · cases s.port <;> exact ⟨rfl, rfl⟩

/-- R35 item 9: an operation in flight needs a POLL. -/
theorem Inv.pollsLeft_pos (h : s.Inv) (hp : s.port ≠ .idle) : 0 < s.pollsLeft := by
  unfold pollsLeft
  split
  case h_1 hi => exact absurd hi hp
  case h_3 hr => exact Nat.sub_pos_of_lt (h.listed.portReadData _ _ _ hr).2
  case h_4 hw => exact Nat.sub_pos_of_lt (h.listed.portWriteData _ _ _ hw).2
  all_goals exact Nat.one_pos

/-- A POLL of an operation with a finite timeout changes nothing only before the deadline. -/
theorem Waits.before_deadline {n : Nat} (h : s.Waits) (hn : s.timeoutOf = some n) :
    s.port.elapsed < n := by
  cases h with
  | idle hp => exact absurd hp (inFlight_of_timeoutOf hn)
  | command _ hp _ ht | read _ _ _ hp _ _ ht | write _ _ _ hp _ _ ht =>
    rw [timeoutOf, hp] at hn
    rw [hp]
    exact ht n hn
  | busy _ _ hp _ ht | reset _ _ _ hp _ ht =>
    rw [timeoutOf, hp] at hn
    cases hn
    rw [hp]
    exact ht

/-- The operation in flight in `s` is over in `t`, with exactly one result. -/
def Over (s t : State) : Prop := t.port = .idle ∧ ∃ r, t.results = s.results ++ [r]

end State

/-! ## How a step of another agent brings it nearer to its end -/

/-- The POLL of an operation with a finite timeout ends it, moves one byte, or waits for the deadline. -/
theorem PollEffect.progress {n : Nat} (h : PollEffect s t) (hn : s.timeoutOf = some n) :
    s.Over t ∨ t.results = s.results ∧ t.timeoutOf = some n ∧ t.port.elapsed = s.port.elapsed ∧
      (t.pollsLeft + 1 = s.pollsLeft ∨ t = s ∧ s.port.elapsed < n) := by
  cases h
  case waiting hw => exact .inr ⟨rfl, hn, rfl, .inr ⟨rfl, hw.before_deadline hn⟩⟩
  case readByte buf i elapsed b rest hp _ _ hl =>
    rw [State.timeoutOf, hp] at hn
    refine .inr ⟨rfl, hn, by rw [hp]; rfl, .inl ?_⟩
    simp only [State.pollsLeft, hp, List.length_set]
    omega
  case writeByte buf i elapsed b hp _ _ _ hl =>
    rw [State.timeoutOf, hp] at hn
    refine .inr ⟨rfl, hn, by rw [hp]; rfl, .inl ?_⟩
    simp only [State.pollsLeft, hp]
    omega
  all_goals exact .inl ⟨rfl, _, rfl⟩

/-- No step but POLL gives the caller a result, and none but TICK and POLL touches the port. -/
theorem EnvEffect.port_frame {e : EnvStep} (h : EnvEffect s e t) (he : e ≠ .poll) :
    t.results = s.results ∧ t.port = if e = .tick then s.port.tick else s.port := by
  cases h
  case poll => exact absurd rfl he
  case tick => exact ⟨rfl, rfl⟩
  case idle hne =>
    refine ⟨rfl, ?_⟩
    split
    · subst e
      simp [not_not.mp hne]
    · rfl
  all_goals exact ⟨rfl, rfl⟩

/-- Once over, an operation stays over. -/
theorem EnvEffect.keeps_over {e : EnvStep} (h : EnvEffect u e v) (ho : s.Over u) : s.Over v := by
  obtain ⟨hp, hr⟩ := id ho
  by_cases he : e = .poll
  · subst he
    cases h with
    | idle => exact ho
    | poll _ hpoll => exact hpoll.of_idle hp ▸ ho
  · obtain ⟨hres, hport⟩ := h.port_frame he
    rw [hp, Port.tick_idle, ite_self] at hport
    exact ⟨hport, hres ▸ hr⟩

/-- A step of another agent ends the operation in flight, or leaves its timeout; a TICK counts up, and
from the deadline on a POLL is one fewer. -/
theorem EnvEffect.progress {e : EnvStep} {n : Nat} (h : EnvEffect s e t)
    (hn : s.timeoutOf = some n) :
    s.Over t ∨ t.results = s.results ∧ t.timeoutOf = some n ∧
      t.port.elapsed = s.port.elapsed + [e].count .tick ∧
      t.pollsLeft ≤ s.pollsLeft ∧
      (n ≤ s.port.elapsed → t.pollsLeft + [e].count .poll ≤ s.pollsLeft) := by
  have hp := State.inFlight_of_timeoutOf hn
  by_cases he : e = .poll
  · subst he
    cases h with
    | idle _ hne => exact absurd hp hne
    | poll _ hpoll =>
      refine (hpoll.progress hn).imp_right ?_
      rintro ⟨hres, ht, helapsed, hleft | ⟨rfl, hlt⟩⟩
      · exact ⟨hres, ht, helapsed, by omega, fun _ => hleft.le⟩
      · exact ⟨hres, ht, helapsed, le_rfl, fun hle => absurd hle hlt.not_ge⟩
  · obtain ⟨hres, hport⟩ := h.port_frame he
    have hmoves : t.port = s.port ∨ t.port = s.port.tick := by
      rw [hport]
      split
      · exact .inr rfl
      · exact .inl rfl
    obtain ⟨ht, hleft⟩ := State.deadline_of_port hmoves h.keeps_inputs_params.2
    refine .inr ⟨hres, ht.trans hn, ?_, hleft.le, fun _ => ?_⟩
    · rw [hport]
      split
      case isTrue het => simp [het, Port.elapsed_tick hp]
      case isFalse het => simp [het]
    · simp [he, hleft]

/-! ## The rest of a run -/

/-- A predicate of the steps still to come and of the state, kept by each such step from a state of the
invariant, holds at the end of the run. -/
theorem run_env_countdown {P : List EnvStep → State → Prop} {es : List EnvStep}
    (fetch : ∀ es u inputs, P es u → P es { u with inputs := inputs })
    (keep : ∀ e es u v, P (e :: es) u → EnvEffect u e v → P es v)
    (h : s.Inv) (hP : P es s) (hi : s.inputs = es.map .env) :
    ∃ t, Host.Core.run Sys2Proof.core es.length s = .next t ∧ t.Inv ∧ t.inputs = [] ∧ P [] t := by
  induction es generalizing s with
  | nil => exact ⟨s, rfl, h, hi, hP⟩
  | cons e es ih =>
    obtain ⟨u, hu⟩ := h.step_next
    have he := env_effect ((step_env hi).symm.trans hu)
    obtain ⟨t, ht, hend⟩ := ih (h.step_keeps hu) (keep e es _ u (fetch _ s _ hP) he)
      he.keeps_inputs_params.1
    exact ⟨t, (run_step hu).trans ht, hend⟩

/-- R135 (c): with the steps `es` to come, the operation in flight in `s` with timeout `n` is over in `u`,
or `es` has the TICKs it lacks to its deadline and then the POLLs it still needs. -/
def State.Due (s : State) (n : Nat) (es : List EnvStep) (u : State) : Prop :=
  s.Over u ∨ u.results = s.results ∧ u.timeoutOf = some n ∧
    ∃ before after, es = before ++ after ∧ n ≤ u.port.elapsed + before.count .tick ∧
      u.pollsLeft ≤ after.count .poll

theorem State.Due.env {n : Nat} {e : EnvStep} {es : List EnvStep} (hd : s.Due n (e :: es) u)
    (he : EnvEffect u e v) : s.Due n es v := by
  rcases hd with ho | ⟨hres, hn, before, after, hes, hticks, hpolls⟩
  · exact .inl (he.keeps_over ho)
  rcases he.progress hn with ⟨hp, hr⟩ | ⟨hres', hn', helapsed, hleft, hpoll⟩
  · exact .inl ⟨hp, hres ▸ hr⟩
  refine .inr ⟨hres'.trans hres, hn', ?_⟩
  cases before with
  | nil =>
    obtain rfl : e :: es = after := hes
    rw [← List.singleton_append, List.count_append] at hpolls
    have hdue : n ≤ u.port.elapsed := hticks
    have := hpoll hdue
    exact ⟨[], es, rfl, by omega, by omega⟩
  | cons _ before =>
    obtain ⟨rfl, rfl⟩ := List.cons.inj hes
    rw [← List.singleton_append, List.count_append] at hticks
    exact ⟨before, after, rfl, by omega, hleft.trans hpolls⟩

/-- With no step to come, what was due is over. -/
theorem State.Due.over {n : Nat} (hd : s.Due n [] u) (h : u.Inv) : s.Over u := by
  refine hd.resolve_right ?_
  rintro ⟨-, hn, before, after, hes, -, hpolls⟩
  obtain ⟨-, rfl⟩ := List.nil_eq_append_iff.mp hes
  exact (h.pollsLeft_pos (inFlight_of_timeoutOf hn)).not_ge hpolls

end Sys2Proof.Machine

end

/-! PROOFS. The statements of 43_data_engine.md. -/

section

namespace Sys2Proof.Proofs

open Sys2Proof.Machine

/-- Settles O60: the operation in flight is `State.Due`, each step keeps that, and at the end of the run it
is over. -/
theorem finiteTimeoutCompletes : Obligations.FiniteTimeoutCompletes := by
  intro s n before after h hn hticks hpolls hi
  have due : s.Due n (before ++ after) s :=
    .inr ⟨rfl, hn, before, after, rfl, by omega, hpolls⟩
  obtain ⟨t, hrun, hinv, hinputs, hend⟩ :=
    run_env_countdown (fun _ _ _ hd => hd) (fun _ _ _ _ hd he => hd.env he) h due hi
  obtain ⟨hp, r, hres⟩ := hend.over hinv
  exact ⟨t, r, hrun, hp, hinputs, hres⟩

/-- Settles O12, by the phase and the operand code. -/
theorem fifoReadyAnswers : Obligations.FifoReadyAnswers := by
  refine ⟨fun r h => by simp [decodeRequest, h], fun s hp => ⟨fun hph => ?_, fun status h => ?_⟩⟩
  · have ho := (Phase.operational_iff _).mpr hph
    exact ⟨exec_fifoReady (d := .readReady) hp ho rfl,
      exec_fifoReady (d := .writeReady) hp ho rfl⟩
  · refine exec_fifoReady_misuse hp ?_
    rwa [fifoStatusOf_eq_none_iff, ← Bool.not_eq_true, Phase.operational_iff]

/-- Settles O13, by the phase and the operand code. -/
theorem waitForResetIssues : Obligations.WaitForResetIssues := by
  refine ⟨fun r h => by simp [decodeRequest, h], fun s timeout hp => ⟨fun hi => ?_, fun line h => ?_⟩⟩
  · exact ⟨exec_waitForReset hp hi rfl _, exec_waitForReset hp hi rfl _,
      exec_waitForReset hp hi rfl _⟩
  · exact exec_waitForReset_misuse hp (h.imp_right (resetLineOf_eq_none_iff line).mpr) timeout

/-- Settles O14, by the phase. -/
theorem waitWhileBusyIssues : Obligations.WaitWhileBusyIssues := by
  refine ⟨fun r h => by simp [decodeRequest, h], fun s timeoutUs hp => ?_⟩
  rw [← Phase.operational_iff]
  exact ⟨fun ho => (onIdlePort_of_idle hp).trans (congrArg _ (if_pos ho)),
    fun ho => onIdlePort_misuse hp ho []⟩

/-- Settles O15, by the guard of the pumps and the length of the buffer. -/
theorem readDataIssues : Obligations.ReadDataIssues := by
  refine ⟨fun r h => by simp [decodeRequest, h], fun s buf hp => ⟨fun hd hb => ?_, fun h => ?_⟩⟩
  · have hl := (State.pumpLegal_iff s).mpr ⟨hd, hb⟩
    exact ⟨fun hnil => hnil ▸ exec_pump_nil (.inl rfl) hp hl, onIdlePort_pump hp hl⟩
  · exact onIdlePort_misuse hp (State.not_pumpLegal h) buf

/-- Settles O16, by the guard of the pumps and the length of the buffer. -/
theorem writeDataIssues : Obligations.WriteDataIssues := by
  refine ⟨fun r h => by simp [decodeRequest, h], fun s buf hp => ⟨fun hd hb => ?_, fun h => ?_⟩⟩
  · have hl := (State.pumpLegal_iff s).mpr ⟨hd, hb⟩
    exact ⟨fun hnil => hnil ▸ exec_pump_nil (.inr rfl) hp hl, onIdlePort_pump hp hl⟩
  · exact onIdlePort_misuse hp (State.not_pumpLegal h) buf

/-- Settles O26: each outcome is one effect of a POLL. -/
theorem pollReadDataOutcomes : Obligations.PollReadDataOutcomes := by
  intro s buf i elapsed hp _
  refine ⟨fun hx => ?_, fun b rest hx hf hl => ?_, fun b rest hx hf hl => ?_,
    fun t hx hf ht hle => ?_, fun hx hf ht => ?_⟩
  · exact (PollEffect.readFault buf i elapsed hp hx).runs
  · exact (PollEffect.readLast buf i elapsed b rest hp hx hf hl).runs
  · exact (PollEffect.readByte buf i elapsed b rest hp hx hf hl).runs
  · exact (PollEffect.readTimeout buf i elapsed t hp hx hf ht hle).runs
  · exact (State.Waits.read buf i elapsed hp hx hf ht).runs

/-- Settles O27: each outcome is one effect of a POLL. -/
theorem pollWriteDataOutcomes : Obligations.PollWriteDataOutcomes := by
  intro s buf i elapsed b hp hb
  refine ⟨fun hx => ?_, fun hx hf hl => ?_, fun hx hf hl => ?_, fun t hx hf ht hle => ?_,
    fun hx hf ht => ?_⟩
  · exact (PollEffect.writeFault buf i elapsed hp hx).runs
  · exact (PollEffect.writeLast buf i elapsed b hp hx hf hb hl).runs
  · exact (PollEffect.writeByte buf i elapsed b hp hx hf hb hl).runs
  · exact (PollEffect.writeTimeout buf i elapsed t hp hx hf ht hle).runs
  · exact (State.Waits.write buf i elapsed hp hx hf ht).runs

/-- Settles O28: each outcome is one effect of a POLL, with `busy` spelled out. -/
theorem pollWaitWhileBusyOutcomes : Obligations.PollWaitWhileBusyOutcomes := by
  intro s timeoutUs elapsed hp
  simp only [← State.busy_iff, Bool.not_eq_true]
  refine ⟨fun hb => ?_, fun hb hle => ?_, fun hb hlt => ?_⟩
  · exact (PollEffect.busyDone timeoutUs elapsed hp hb).runs
  · exact (PollEffect.busyTimeout timeoutUs elapsed hp hb hle).runs
  · exact (State.Waits.busy timeoutUs elapsed hp hb hlt).runs

/-- Settles O29: each outcome is one effect of a POLL; on expiry the line's own bit is withdrawn. -/
theorem pollWaitForResetOutcomes : Obligations.PollWaitForResetOutcomes := by
  intro s line timeoutUs elapsed hp
  refine ⟨fun hr => ?_, fun hr hle => ?_, fun hr hlt => ?_⟩
  · exact (PollEffect.resetDone line timeoutUs elapsed hp hr).runs
  · refine ⟨s.rstReq.set false line, by simp, fun r hne => by simp [hne], ?_⟩
    exact (PollEffect.resetTimeout line timeoutUs elapsed hp hr hle).runs
  · exact (State.Waits.reset line timeoutUs elapsed hp hr hlt).runs

end Sys2Proof.Proofs

end

/-! SUPPORT. The six accessors of the interrupt registers, by their one guard (R140 to R145). -/

section

namespace Sys2Proof.Machine

variable {s u : State}

/-- On an idle port of an initialized block an accessor answers from the state it writes. -/
theorem accessor_of_initialized (hp : s.port = .idle) (hi : s.phase ≠ .uninitialized)
    (hu : u.port = .idle) (r : Result) :
    accessor s (u.complete r []) = .next (u.answers r []) := by
  have hg : s.phase.initialized = true := (Phase.initialized_iff _).mpr hi
  exact (onIdlePort_guarded hp hu r []).trans (congrArg _ (if_pos hg))

/-- R175: on an idle port in Uninitialized an accessor is misuse, whatever it would write. -/
theorem accessor_of_uninitialized (hp : s.port = .idle) (hi : s.phase = .uninitialized) (t : State) :
    accessor s t = .next (s.answers (.err .general) []) :=
  onIdlePort_misuse hp (fun hg => (Phase.initialized_iff _).mp hg hi) []

end Sys2Proof.Machine

end

/-! PROOFS. The statements of 44_interrupt_tuning.md. -/

section

namespace Sys2Proof.Proofs

open Sys2Proof.Machine

/-- Settles O18, by the guard of the accessors. -/
theorem transportInterruptAnswers : Obligations.TransportInterruptAnswers := by
  refine ⟨fun r => ?_, fun s v hp => ⟨fun hi => ?_, fun hi i hmem => ?_⟩⟩
  · refine ⟨fun h => ?_, fun h => ?_, fun h => ?_⟩ <;> simp [decodeRequest, h]
  · exact ⟨accessor_of_initialized hp hi hp _, accessor_of_initialized hp hi (by exact hp) _,
      accessor_of_initialized hp hi (by exact hp) _⟩
  · fin_cases hmem <;> exact accessor_of_uninitialized hp hi _

/-- Settles O19, by the guard of the accessors. -/
theorem responseInterruptAnswers : Obligations.ResponseInterruptAnswers := by
  refine ⟨fun r => ?_, fun s v hp => ⟨fun hi => ?_, fun hi i hmem => ?_⟩⟩
  · refine ⟨fun h => ?_, fun h => ?_, fun h => ?_⟩ <;> simp [decodeRequest, h]
  · exact ⟨accessor_of_initialized hp hi hp _, accessor_of_initialized hp hi (by exact hp) _,
      accessor_of_initialized hp hi (by exact hp) _⟩
  · fin_cases hmem <;> exact accessor_of_uninitialized hp hi _

end Sys2Proof.Proofs

end

/-! SUPPORT. The steps of the other agents run as their effects say, and a step that is not enabled changes
nothing (R150 to R160, log 2). -/

section

namespace Sys2Proof.Machine

variable {s t : State} {e : EnvStep}

/-! ## A step of another agent and its effects are one -/

/-- A step that is not enabled answers the same state (log 2). -/
theorem runEnv_of_not_enables (h : ¬ s.enables e) : runEnv e s = .next s := by
  cases e with
  | sendCommand f =>
    rw [runEnv_sendCommand]
    exact congrArg _ (if_neg (s.latchArmed_iff.not.mpr h))
  | takeResponse => exact congrArg _ (if_neg h)
  | pushByte b =>
    refine congrArg _ (if_neg fun hg => h ?_)
    rwa [Bool.and_eq_true, Phase.initialized_iff, State.rxRoom_iff] at hg
  | popByte =>
    have hx : s.txf = [] := not_not.mp h
    simp only [runEnv, hostPopByte, hx]
  | busFault => exact congrArg _ (if_neg h)
  | hwReset line => exact congrArg _ (if_neg h)
  | tuningDone => exact congrArg _ (if_neg h)
  | poll => exact (State.Waits.idle (not_not.mp h)).runs
  | tick =>
    have hp : s.port = .idle := not_not.mp h
    rw [runEnv, clockTick, hp, Port.tick_idle, ← hp]

/-- The converse of `env_effect`. -/
theorem EnvEffect.runs (h : EnvEffect s e t) : runEnv e s = .next t := by
  cases h with
  | idle _ hn => exact runEnv_of_not_enables hn
  | latch f h1 h2 h3 =>
    rw [runEnv_sendCommand, hostSendCommand_of_armed h1 h2 h3, State.latch_eq]
  | takeResponse hr => exact congrArg _ (if_pos hr)
  | pushByte b hp hl =>
    refine congrArg _ (if_pos ?_)
    rw [Bool.and_eq_true, Phase.initialized_iff, State.rxRoom_iff]
    exact ⟨hp, hl⟩
  | popByte b rest hx =>
    simp only [runEnv, hostPopByte, hx]
    cases rest <;> rfl
  | busFault hp => exact congrArg _ (if_pos hp)
  | resetAll hr => exact runEnv_hwReset (line := .all) hr
  | resetCmd hr => exact runEnv_hwReset (line := .cmd) hr
  | resetData hr => exact runEnv_hwReset (line := .data) hr
  | tuningDone ht => exact congrArg _ (if_pos ht)
  | poll _ hp => exact hp.runs
  | tick => rfl

/-! ## Uninitialized with an idle port (R158) -/

/-- R35 item 2: every guard of another agent's step asks for a flag, a byte, a phase or an operation
that a cleared block does not have. -/
theorem State.Inv.not_enables (h : s.Inv) (hu : s.phase = .uninitialized) (hp : s.port = .idle)
    (e : EnvStep) : ¬ s.enables e := by
  obtain ⟨-, -, -, hresp, -, htxf, -, htuning, hreq⟩ := h.listed.uninitialized hu
  cases e with
  | hwReset line => simp [State.enables, hreq line]
  | _ => simp [State.enables, hu, hp, hresp, htxf, htuning]

/-! ## The frames (R150) -/

/-- R26: setting another bit leaves a bit as it is. -/
theorem setBit_getLsbD_ne {v : Word} {k j : Nat} (hk : k < 32) (h : j ≠ k) :
    (setBit v k).getLsbD j = v.getLsbD j := by
  simp [setBit_getLsbD v k j hk, h]

/-- R150: a frame writes at most the latch, its two flags and the event bits 0 and 1. -/
theorem EnvEffect.sendCommand_frame {f : Frame} (h : EnvEffect s (.sendCommand f) t) :
    t = { s with cmdLatch := t.cmdLatch, cmdPending := t.cmdPending, cmdCrcFail := t.cmdCrcFail,
                 rintSt := t.rintSt } ∧
    ∀ k, k ≠ 0 → k ≠ 1 → t.rintSt.getLsbD k = s.rintSt.getLsbD k := by
  cases h with
  | idle => exact ⟨rfl, fun _ _ _ => rfl⟩
  | latch =>
    refine ⟨rfl, fun k h0 h1 => ?_⟩
    dsimp only
    split
    · rw [setBit_getLsbD_ne (by decide) h1, setBit_getLsbD_ne (by decide) h0]
    · exact setBit_getLsbD_ne (by decide) h0

end Sys2Proof.Machine

end

/-! PROOFS. The statements of 45_bus_agents.md. -/

section

namespace Sys2Proof.Proofs

open Sys2Proof.Machine

/-- Settles O30, by whether a response is ready. -/
theorem hostTakeResponseEffect : Obligations.HostTakeResponseEffect :=
  fun _ => ⟨fun h => (EnvEffect.takeResponse h).runs,
    fun h => runEnv_of_not_enables (Bool.eq_false_iff.mp h)⟩

/-- Settles O31, by the guards of the push and the pop. -/
theorem hostFifoEffect : Obligations.HostFifoEffect := by
  intro s b
  refine ⟨fun hp hl => ?_, fun h => ?_, fun rest hx => ?_, fun hx => ?_⟩
  · exact (EnvEffect.pushByte b hp hl).runs
  · exact runEnv_of_not_enables fun hg => h.elim hg.1 hg.2.not_ge
  · exact (EnvEffect.popByte b rest hx).runs
  · exact runEnv_of_not_enables (not_not.mpr hx)

/-- Settles O32, by the guards of the two steps. -/
theorem faultAndTuningDoneEffect : Obligations.FaultAndTuningDoneEffect := by
  intro s
  refine ⟨fun h => ?_, fun h => ?_, fun h => ?_, fun h => ?_⟩
  · exact (EnvEffect.busFault h).runs
  · exact runEnv_of_not_enables h
  · exact (EnvEffect.tuningDone h).runs
  · exact runEnv_of_not_enables (Bool.eq_false_iff.mp h)

/-- Settles O33: the phase a line leaves is `phaseAfterReset`'s. -/
theorem scopedResetEffect : Obligations.ScopedResetEffect := by
  intro s
  rw [← phaseAfterReset_cmd, ← phaseAfterReset_data]
  exact ⟨fun h => (EnvEffect.resetCmd h).runs, fun h => (EnvEffect.resetData h).runs,
    fun _ h => runEnv_of_not_enables (Bool.eq_false_iff.mp h)⟩

/-- Settles O35: what `Port.tick` does to the record in flight. -/
theorem tickEffect : Obligations.TickEffect := by
  intro s elapsed buf i timeoutUs line
  have ticks {p : Port} (hp : s.port = p) : runEnv .tick s = .next { s with port := p.tick } :=
    hp ▸ EnvEffect.tick.runs
  exact ⟨fun hp => runEnv_of_not_enables (not_not.mpr hp), ticks, ticks, ticks, ticks, ticks⟩

/-- Settles O36: no guard of R150 to R160 holds there. -/
theorem uninitializedIsQuiescent : Obligations.UninitializedIsQuiescent :=
  fun _ e h hu hp => runEnv_of_not_enables (h.not_enables hu hp e)

/-- Settles O40: both rows of the table are a frame the host sends. -/
theorem frameInstructionsFrame : Obligations.FrameInstructionsFrame := by
  intro s t index word crc i hi h
  have sent {f : Frame} (h : hostSendCommand f s = .next t) : EnvEffect s (.sendCommand f) t :=
    env_effect ((runEnv_sendCommand f s).trans h)
  fin_cases hi
  · exact (sent (f := commandFrame index word crc) h).sendCommand_frame
  · exact (sent (f := responseFrame index word crc) h).sendCommand_frame

end Sys2Proof.Proofs

end

/-! SUPPORT. The errors (R171, R175): an operation whose guard of R102 fails is misuse, each row of the
table of R171 runs to the error it names, and each error result is a row of it. -/

section

namespace Sys2Proof.Machine

variable {s t : State} {e : Err} {buf : List Byte} {enters : Bool}

/-! ## The columns of R102 where a guard fails -/

section Columns

variable {p : Phase}

theorem allowed_of_column : inColumns true true true true true true p = true := by
  cases p <;> rfl

theorem not_operational_of_column (h : inColumns false true true true true false p = false) :
    p.operational = false := by
  cases p <;> exact h

theorem uninitialized_of_column (h : inColumns false true true true true true p = false) :
    p = .uninitialized := by
  cases p <;> trivial

theorem not_initLegal_of_column (h : inColumns true false false false false true p = false) :
    initLegal p = false := by
  cases p <;> exact h

theorem ne_standby_of_column (h : inColumns false true false false false false p = false) :
    p ≠ .standby := by
  rintro rfl
  cases h

theorem ne_commandPending_of_column (h : inColumns false false true false false false p = false) :
    p ≠ .commandPending := by
  rintro rfl
  cases h

theorem ne_dataTransfer_of_column (h : inColumns false false false false true false p = false) :
    p ≠ .dataTransfer := by
  rintro rfl
  cases h

end Columns

/-! ## Misuse (R102, R175) -/

/-- R146: the guard of `send_tuning` fails with the phase, with a flag, or with one of the operands. -/
theorem not_tuningGuard {mode width : Word} (h : legal (.sendTuning mode width) s = false) :
    s.tuningLegal = false ∨ tuningModeOf mode = none ∨ tuningWidthOf width = none := by
  rw [tuningModeOf_eq_none_iff, tuningWidthOf_eq_none_iff]
  by_contra hc
  obtain ⟨ht, hm, hw⟩ : s.tuningLegal = true ∧ mode.toNat ≤ 2 ∧ width.toNat ≤ 1 := by
    simpa using hc
  obtain ⟨ho, hb, ha⟩ := (State.tuningLegal_iff s).mp ht
  rcases Bool.and_eq_false_iff.mp h with hp | hf
  · cases ho.symm.trans (not_operational_of_column hp)
  · simp [furtherGuard, hb, ha, hm, hw] at hf

/-- R175: on an idle port an operation whose guard fails answers `Err(General)` with its caller's buffer,
and changes nothing else. -/
theorem exec_misuse {i : Instr} (hd : isDriverInstr i = true) (hp : s.port = .idle)
    (hl : legal i s = false) : exec i s = .next (s.answers (.err .general) (callerBuf i)) := by
  have guard : matrixAllows i s.phase = false ∨ furtherGuard s i = false :=
    Bool.and_eq_false_iff.mp hl
  cases i
  case setupBus | waitWhileBusy =>
    have ho := not_operational_of_column (guard.resolve_right nofun)
    exact onIdlePort_misuse hp (Bool.eq_false_iff.mp ho) []
  case init =>
    have hi := not_initLegal_of_column (guard.resolve_right nofun)
    exact onIdlePort_misuse hp (Bool.eq_false_iff.mp hi) []
  case fifoReady status =>
    refine exec_fifoReady_misuse hp (guard.imp not_operational_of_column fun hf => ?_)
    exact (fifoStatusOf_eq_none_iff status).mpr (not_le.mp (of_decide_eq_false hf))
  case waitForReset line timeout =>
    refine exec_waitForReset_misuse hp (guard.imp uninitialized_of_column fun hf => ?_) timeout
    exact (resetLineOf_eq_none_iff line).mpr (not_le.mp (of_decide_eq_false hf))
  case readData buf | writeData buf =>
    have hg := State.not_pumpLegal (guard.imp_left ne_dataTransfer_of_column)
    exact onIdlePort_misuse hp hg buf
  case sendTuning => exact exec_sendTuning_misuse hp (not_tuningGuard hl)
  case interrupt | setInterrupt | clearAllInterrupt | responseInterrupt | setResponseInterrupt |
      clearAllResponseInterrupt =>
    exact accessor_of_uninitialized hp (uninitialized_of_column (guard.resolve_right nofun)) _
  case readCommand =>
    exact onIdlePort_misuse hp (not_codecGuard (guard.imp_left ne_standby_of_column)) []
  case writeResponse =>
    exact onIdlePort_misuse hp (not_codecGuard (guard.imp_left ne_commandPending_of_column)) []
  case cmd48 | rsp48 => cases hd
  case cardType | cardMode | reserved12To13 | reserved14To17 | reserved18To1F | reserved20To3F |
      reserved40To7F | reserved80ToFF =>
    cases allowed_of_column.symm.trans (guard.resolve_right nofun)

/-! ## Every row of R171 gives its error -/

/-- Between `s` and `t` an operation ends in `Err(e)`, and the phase becomes Error where `enters` says so
and is kept otherwise. -/
def State.EndsInError (s : State) (e : Err) (enters : Bool) (t : State) : Prop :=
  (∃ buf, t.results = s.results ++ [⟨.err e, buf⟩]) ∧
    t.phase = if enters = true then .error else s.phase

/-- R175: misuse and a reserved code leave the phase. -/
theorem State.EndsInError.answers : s.EndsInError e false (s.answers (.err e) buf) :=
  ⟨⟨buf, rfl⟩, rfl⟩

/-- R177: a fault enters Error, whatever its cleanup has written. -/
theorem State.EndsInError.enterError (h : t.results = s.results) :
    s.EndsInError e true (t.enterError e buf) :=
  ⟨⟨buf, by rw [State.enterError_results, h]⟩, rfl⟩

open ErrorRow in
/-- The rows do not look at the inputs and the draw counter (log 1). -/
theorem ErrorRow.fetch {i : Input} (h : ErrorRow s i e enters) (inputs : List Input) (draws : Nat) :
    ErrorRow { s with inputs := inputs, draws := draws } i e enters :=
  let u : State := { s with inputs := inputs, draws := draws }
  h.rec (@e1e2 u) (@e3 u) (@e4 u) (@e5e6 u) (@e7 u) (@e8 u) (@e9 u) (@e10 u) (@e11 u)

/-- R123, R126: the fault flag ends either pump. -/
theorem PollEffect.of_pumpFault (hp : s.port.isPump = true) (hx : s.xferFault = true) :
    ∃ buf, PollEffect s (s.enterError .general buf) := by
  cases hport : s.port with
  | readData buf i elapsed => exact ⟨buf, .readFault buf i elapsed hport hx⟩
  | writeData buf i elapsed => exact ⟨buf, .writeFault buf i elapsed hport hx⟩
  | idle | readCommand | waitWhileBusy | waitForReset => simp [hport, Port.isPump] at hp

/-- R123, R126: the deadline ends either pump. -/
theorem PollEffect.of_pumpExpired (hx : s.xferFault = false) (h : s.pumpExpired) :
    ∃ buf, PollEffect s (s.enterError .general buf) := by
  obtain ⟨buf, i, elapsed, t, hp, hf, ht, hle⟩ | ⟨buf, i, elapsed, t, hp, hf, ht, hle⟩ := h
  · exact ⟨buf, .readTimeout buf i elapsed t hp hx hf ht hle⟩
  · exact ⟨buf, .writeTimeout buf i elapsed t hp hx hf ht hle⟩

/-- The rows of POLL are effects of POLL. -/
theorem ErrorRow.poll_effect (h : ErrorRow s (.env .poll) e enters) :
    ∃ t, PollEffect s t ∧ s.EndsInError e enters t := by
  cases h with
  | e3 elapsed t hp hc ht hle => exact ⟨_, .commandTimeout elapsed t hp hc ht hle, .enterError rfl⟩
  | e4 hp hx =>
    obtain ⟨buf, h⟩ := PollEffect.of_pumpFault hp hx
    exact ⟨_, h, .enterError rfl⟩
  | e5e6 hx he =>
    obtain ⟨buf, h⟩ := PollEffect.of_pumpExpired hx he
    exact ⟨_, h, .enterError rfl⟩
  | e7 timeoutUs elapsed hp hb hle =>
    exact ⟨_, .busyTimeout timeoutUs elapsed hp hb hle, .enterError rfl⟩
  | e8 line timeoutUs elapsed hp hr hle =>
    exact ⟨_, .resetTimeout line timeoutUs elapsed hp hr hle, .enterError rfl⟩
  | e9 elapsed hp hc hf => exact ⟨_, .commandCrc elapsed hp hc hf, .enterError rfl⟩
  | e10 elapsed hp hc hf hl => exact ⟨_, .commandIllegal elapsed hp hc hf hl, .enterError rfl⟩

/-- Of the other agents' steps only POLL has a row, and it runs to the error the row names. -/
theorem ErrorRow.runs_env {a : EnvStep} (h : ErrorRow s (.env a) e enters) :
    ∃ t, runEnv a s = .next t ∧ s.EndsInError e enters t := by
  cases a with
  | poll =>
    obtain ⟨t, ht, he⟩ := h.poll_effect
    exact ⟨t, ht.runs, he⟩
  | _ => cases h

/-- A row of a request runs, on an idle port, to the error it names. -/
theorem ErrorRow.runs_request {r : Request} (hp : s.port = .idle)
    (h : ErrorRow s (.request r) e enters) :
    ∃ t, exec (decodeRequest r) s = .next t ∧ s.EndsInError e enters t := by
  cases h with
  | e1e2 _ _ hl => exact ⟨_, exec_misuse (isDriverInstr_decodeRequest r) hp hl, .answers⟩
  | e11 _ hr => exact ⟨_, exec_reserved hr hp, .answers⟩

/-! ## Every error result is a row of R171 -/

/-- A step that gives no result adds none to what the caller has received. -/
theorem State.results_ne_append {c : Completion} (h : t.results = s.results) :
    t.results ≠ s.results ++ [c] := by
  simp [h]

/-- The caller receives one error: the results say which. -/
theorem State.err_of_results_append {e' : Err} {buf' : List Byte}
    (h : s.results ++ [⟨.err e', buf'⟩] = s.results ++ [⟨.err e, buf⟩]) : e' = e := by
  cases List.append_cancel_left h
  rfl

/-- R102: an issue that ends in no error gives no error result. -/
theorem State.IssuedOk.results_ne {buf' : List Byte} (h : s.IssuedOk buf' t) :
    t.results ≠ s.results ++ [⟨.err e, buf⟩] := by
  rcases h with ⟨hres, _⟩ | ⟨r, hres, _, hr⟩
  · exact State.results_ne_append hres
  · intro he
    cases List.append_cancel_left (hres.symm.trans he)
    exact hr e rfl

/-- A request that ends in an error is E1, E2 or E11. -/
theorem errorRow_of_exec {r : Request} (hp : s.port = .idle)
    (h : exec (decodeRequest r) s = .next t) (he : t.results = s.results ++ [⟨.err e, buf⟩]) :
    ErrorRow s (.request r) e false := by
  have hd := isDriverInstr_decodeRequest r
  cases hr : isReserved (decodeRequest r) with
  | true =>
    cases h.symm.trans (exec_reserved hr hp)
    obtain rfl := State.err_of_results_append he
    exact .e11 r hr
  | false =>
    cases hl : legal (decodeRequest r) s with
    | true =>
      obtain ⟨u, hu, hok⟩ := exec_issuedOk hd hr hp hl
      cases h.symm.trans hu
      exact absurd he hok.results_ne
    | false =>
      cases h.symm.trans (exec_misuse hd hp hl)
      obtain rfl := State.err_of_results_append he
      exact .e1e2 r hr hl

/-- A POLL that ends in an error is E3 to E10. -/
theorem PollEffect.errorRow (h : PollEffect s t) (he : t.results = s.results ++ [⟨.err e, buf⟩]) :
    ErrorRow s (.env .poll) e true := by
  cases h
  case waiting | readByte | writeByte => exact absurd he (State.results_ne_append rfl)
  case commandOk | readLast | writeLast | busyDone | resetDone => cases List.append_cancel_left he
  all_goals obtain rfl := State.err_of_results_append he
  case commandCrc elapsed hp hc hf => exact .e9 elapsed hp hc hf
  case commandIllegal elapsed hp hc hf hl => exact .e10 elapsed hp hc hf hl
  case commandTimeout elapsed t hp hc ht hle => exact .e3 elapsed t hp hc ht hle
  case readFault buf i elapsed hp hx => exact .e4 (by rw [hp]; rfl) hx
  case readTimeout buf i elapsed t hp hx hf ht hle =>
    exact .e5e6 hx (.inl ⟨buf, i, elapsed, t, hp, hf, ht, hle⟩)
  case writeFault buf i elapsed hp hx => exact .e4 (by rw [hp]; rfl) hx
  case writeTimeout buf i elapsed t hp hx hf ht hle =>
    exact .e5e6 hx (.inr ⟨buf, i, elapsed, t, hp, hf, ht, hle⟩)
  case busyTimeout timeoutUs elapsed hp hb hle => exact .e7 timeoutUs elapsed hp hb hle
  case resetTimeout line timeoutUs elapsed hp hr hle => exact .e8 line timeoutUs elapsed hp hr hle

/-- A step of another agent that ends in an error is a row of POLL. -/
theorem EnvEffect.errorRow {a : EnvStep} (h : EnvEffect s a t)
    (he : t.results = s.results ++ [⟨.err e, buf⟩]) : ErrorRow s (.env a) e true := by
  by_cases ha : a = .poll
  · subst ha
    cases h with
    | idle => exact absurd he (State.results_ne_append rfl)
    | poll _ hpoll => exact hpoll.errorRow he
  · exact absurd he (State.results_ne_append (h.port_frame ha).1)

end Sys2Proof.Machine

end

/-! PROOFS. The statements of 60_exceptions.md. -/

section

namespace Sys2Proof.Proofs

open Sys2Proof.Machine

/-- Settles O46: by the kind of the step; an error result is a row of the table, and a row runs to the
error it names. -/
theorem errorsOnlyFromTable : Obligations.ErrorsOnlyFromTable := by
  intro s t _ hs
  rcases step_cases s with ⟨r, rest, _, hp, hn, hstep⟩ | ⟨a, inputs, draws, hn, hstep⟩
  all_goals
    rw [hn]
    rw [hstep] at hs
  · refine ⟨fun e buf he => ⟨false, ?_⟩, fun e enters hrow => ?_⟩
    · exact (errorRow_of_exec (by exact hp) hs he).fetch s.inputs s.draws
    · obtain ⟨u, hu, hend⟩ := (hrow.fetch rest s.draws).runs_request (by exact hp)
      cases hs.symm.trans hu
      exact hend
  · refine ⟨fun e buf he => ⟨true, ?_⟩, fun e enters hrow => ?_⟩
    · exact ((env_effect hs).errorRow he).fetch s.inputs s.draws
    · obtain ⟨u, hu, hend⟩ := (hrow.fetch inputs draws).runs_env
      cases hs.symm.trans hu
      exact hend

/-- Settles O43: a failed guard is misuse, and a reserved code has no guard. -/
theorem misuseChangesNothing : Obligations.MisuseChangesNothing :=
  fun _ _ hd hp => ⟨exec_misuse hd hp, fun hr => exec_reserved hr hp⟩

end Sys2Proof.Proofs

end
